-- ==== Sys2Proof/Word.lean ====
section
/-! DEFINITION. The word types of the block: command words, bytes, pin and handler identifiers, clock values. -/

namespace Sys2Proof

/-- A command word (30_encoding.md R70). -/
abbrev Word := BitVec 64

/-- A DigitPattern, LedPattern, RawSwitchSample or StableKeyStatus byte (10_state.md R22-R26). -/
abbrev Byte := BitVec 8

/-- A pin identifier (20_memory.md R51). -/
abbrev PinId := BitVec 8

/-- A handler identifier; 0 means none (10_state.md R30). -/
abbrev HandlerId := BitVec 16

/-- The 16-bit event word (42_classifier.md R178). -/
abbrev EventWord := BitVec 16

/-- A value of the millisecond clock, or a deadline: W = CLOCK_WIDTH = 32 bits (00_scope.md R9, R11, D24; log 18). -/
abbrev Time := BitVec 32

end Sys2Proof
end

