-- ==== Sys2Proof/Config.lean ====
section
/-! DEFINITION. The block's parameters (00_scope.md R9, R10): the record every parametric operation takes as an
argument, the opaque OPEN values, and the board `exec` runs with. -/

namespace Sys2Proof

/-- The four event kinds (42_classifier.md R176); "none" is `Option.none`. -/
inductive EventKind where
  | press
  | double
  | hold
  | auto
deriving DecidableEq, Repr

/-- EVENT_CODE (R9, D16). -/
structure EventCodes where
  press : BitVec 16
  double : BitVec 16
  hold : BitVec 16
  auto : BitVec 16
deriving DecidableEq, Repr

/-- EVENT_CODE[kind] (R9). -/
def EventCodes.of (c : EventCodes) : EventKind → BitVec 16
  | .press => c.press
  | .double => c.double
  | .hold => c.hold
  | .auto => c.auto

/-- TIME_COMPARE (R9, R13, D14, I11). -/
inductive TimeCompare where
  | modular
  | plainUnsigned
deriving DecidableEq, Repr

/-- REPEAT_BASE (R9, 42_classifier.md R174, D15, I16). -/
inductive RepeatBase where
  | deadline
  | now
deriving DecidableEq, Repr

/-- RAW_FOLD (R9, D12, I7). -/
inductive RawFold where
  | atomicBit
  | byteRmw
deriving DecidableEq, Repr

/-- SLOT4_BYTE: the source of the byte shifted at slot 4 (R9, D5; log 21). The spec names one value. -/
inductive Slot4Byte where
  | led
deriving DecidableEq, Repr

/-- SEG_A..SEG_G, SEG_DP (R9, 41_display.md R130). -/
structure Segments where
  a : Byte
  b : Byte
  c : Byte
  d : Byte
  e : Byte
  f : Byte
  g : Byte
  dp : Byte
deriving DecidableEq, Repr

/-- The parameters of 00_scope.md R9 on a block of any size, the argument of every parametric operation. The sizes are
arguments of the type: W = CLOCK_WIDTH, CW = COUNTER_WIDTH, ND = NUM_DIGITS, NS = NUM_SLOTS, NX = NUM_EXTRA,
NB = NUM_DEBOUNCED (R9, D11, D24, D27). -/
structure Sized.Params (W CW ND NS NX NB : Nat) where
  /-- NUM_MUX, the multiplexed switch bits -/
  numMux : Nat
  /-- DEBOUNCE, a count of POLLs -/
  debounce : BitVec CW
  /-- T_DBLCLICK, ms -/
  tDblclick : BitVec W
  /-- T_HOLD, ms -/
  tHold : BitVec W
  /-- T_REPEAT, ms -/
  tRepeat : BitVec W
  timeCompare : TimeCompare
  repeatBase : RepeatBase
  eventCode : EventCodes
  /-- SEG_A..SEG_G, SEG_DP: the layout the patterns are built from; no rule reads it (41_display.md R130) -/
  segments : Segments
  /-- DP_PATTERN -/
  dpPattern : Byte
  /-- DIGIT_FONT[0..9] -/
  digitFont : Vector Byte 10
  /-- LETTER_FONT, A-Z and dash; no rule reads it (41_display.md R132) -/
  letterFont : Vector Byte 27
  slot4Byte : Slot4Byte
  /-- EXTRA_KEY_BIT[A..] -/
  extraKeyBit : Vector (Fin 8) NX
  /-- PIN_DIGIT[0..] -/
  pinDigit : Vector PinId ND
  pinClk : PinId
  pinData : PinId
  pinSwRead : PinId
  /-- DIGIT_ON_LEVEL: ON; OFF is its negation (R15) -/
  digitOnLevel : Bool
  swPressedLevel : Bool
  extraPressedLevel : Bool
  clkIdle : Bool
  rawFold : RawFold
  /-- TICK_HZ; no rule reads it (R8, D25) -/
  tickHz : Nat
deriving DecidableEq, Repr

/-- The parameters of a block of this hardware's sizes: W = 32, COUNTER_WIDTH = 8, NUM_DIGITS = 4, NUM_SLOTS = 5,
NUM_EXTRA = 3, NUM_DEBOUNCED = 6 (R9). -/
abbrev Params := Sized.Params 32 8 4 5 3 6

/-- `x` is a power of two in bits [15:8] (R10). -/
def isKindBit (x : BitVec 16) : Bool :=
  x ∈ ([0x0100, 0x0200, 0x0400, 0x0800, 0x1000, 0x2000, 0x4000, 0x8000] : List (BitVec 16))

/-- The constraints of 00_scope.md R10, with W >= 2 (D24) and room for a W-bit `now` below the opcode (30_encoding.md
R70, R81). -/
def Sized.Params.wf {W CW ND NS NX NB : Nat} (P : Sized.Params W CW ND NS NX NB) : Bool :=
  decide (2 ≤ W) && decide (W ≤ 56)
  && decide (1 ≤ P.debounce.toNat) && decide (P.debounce.toNat ≤ 255)
  && decide (P.tDblclick.toNat < 2 ^ (W - 1)) && decide (P.tHold.toNat < 2 ^ (W - 1))
  && decide (P.tRepeat.toNat < 2 ^ (W - 1))
  && isKindBit P.eventCode.press && isKindBit P.eventCode.double
  && isKindBit P.eventCode.hold && isKindBit P.eventCode.auto
  && decide ([P.eventCode.press, P.eventCode.double, P.eventCode.hold, P.eventCode.auto].Nodup)
  && decide (P.extraKeyBit.toList.Nodup) && P.extraKeyBit.toList.all (fun b => decide (P.numMux ≤ b.val))
  && decide (NB ≤ 8)

/-- The six output pins are six different pins. No rule assumes it; a display claim takes it as a premise (D9). -/
def Params.OutputPinsDistinct (P : Params) : Prop :=
  [P.pinDigit[0], P.pinDigit[1], P.pinDigit[2], P.pinDigit[3], P.pinClk, P.pinData].Nodup

namespace Config

/-! The OPEN parameters and the free values: constants with no body, so a claim holds whatever they are (log 2, log 4). -/

/-- PIN_DIGIT[0..3], OPEN (R9, D9, I3). -/
opaque pinDigit : Vector PinId 4

/-- PIN_CLK, OPEN (R9, D9, I3). -/
opaque pinClk : PinId

/-- PIN_DATA, OPEN (R9, D9, I3). -/
opaque pinData : PinId

/-- PIN_SWREAD, OPEN (R9, D9, I3). -/
opaque pinSwRead : PinId

/-- DIGIT_ON_LEVEL, OPEN (R9, D8, I2). -/
opaque digitOnLevel : Bool

/-- SW_PRESSED_LEVEL, OPEN (R9, D8, I2). -/
opaque swPressedLevel : Bool

/-- EXTRA_PRESSED_LEVEL, OPEN (R9, D8, I2). -/
opaque extraPressedLevel : Bool

/-- LETTER_FONT for A-Z and dash, OPEN and read by no rule (41_display.md R132, I5). -/
opaque letterFont : Vector Byte 27

/-- TICK_HZ, OPEN and read by no rule: the model has no time (R8, D25, I15). -/
opaque tickHz : Nat

/-- FREE VALUE. The level ENV answers at the n-th pin read, on pin p, when `State.env` holds no answer for it
(20_memory.md R56, I18; log 4). -/
opaque envLevel : Nat → PinId → Bool

/-- The segment bits (R9, 41_display.md R130). -/
def segments : Segments where
  a := 0x80
  f := 0x40
  b := 0x20
  g := 0x10
  c := 0x08
  dp := 0x04
  d := 0x02
  e := 0x01

/-- The default DIGIT_FONT (41_display.md R131, D20, G1). PRESUMED: the shapes are general knowledge (log 17). -/
def digitFont : Vector Byte 10 :=
  #v[0xEB, 0x28, 0xB3, 0xBA, 0x78, 0xDA, 0xDB, 0xA8, 0xFB, 0xFA]

/-- The board this hardware is: the values of 00_scope.md R9, the OPEN ones opaque (log 2, log 3). -/
def board : Params where
  numMux := 5
  debounce := 20
  tDblclick := 200
  tHold := 500
  tRepeat := 50
  timeCompare := .modular
  repeatBase := .deadline
  eventCode := ⟨0x0100, 0x0200, 0x0400, 0x0800⟩
  segments := segments
  dpPattern := segments.dp
  digitFont := digitFont
  letterFont := letterFont
  slot4Byte := .led
  extraKeyBit := #v[5, 6, 7]
  pinDigit := pinDigit
  pinClk := pinClk
  pinData := pinData
  pinSwRead := pinSwRead
  digitOnLevel := digitOnLevel
  swPressedLevel := swPressedLevel
  extraPressedLevel := extraPressedLevel
  clkIdle := false
  rawFold := .atomicBit
  tickHz := tickHz

end Config

end Sys2Proof
end

