-- ==== Sys2Proof/Syntax.lean ====
section
/-! DEFINITION. The block's commands: one constructor per row of spec/opcode_table.json (30_encoding.md R72). -/

namespace Sys2Proof

/-- A decoded command. The SHOW constructor is `showSegs`, because `show` is a Lean keyword; the source calls the
operation showSegments (log 19). -/
inductive Instr where
  /-- INIT (R73) -/
  | init
  /-- SETHANDLER h (R74) -/
  | sethandler (h : HandlerId)
  /-- SETEXTRAKEY key, pin: key 0 = A, 1 = B, 2 = C (R75) -/
  | setextrakey (key : BitVec 2) (pin : PinId)
  /-- SHOW d0, d1, d2, d3 (R76) -/
  | showSegs (d0 d1 d2 d3 : Byte)
  /-- SHOWNUM n, start (R77) -/
  | shownum (n : BitVec 16) (start : BitVec 8)
  /-- CLEAR (R78) -/
  | clear
  /-- SETLEDS set, mask (R79) -/
  | setleds (bits mask : Byte)
  /-- CLEARLEDS mask (R80) -/
  | clearleds (mask : Byte)
  /-- POLL now (R81) -/
  | poll (now : Time)
  /-- TICK (R82) -/
  | tick
deriving DecidableEq, Repr

end Sys2Proof
end

