-- ==== Sys2Proof/WellFormed.lean ====
section
/-! DEFINITION. Which commands are well formed: the operand values the encoding admits. -/

namespace Sys2Proof

/-- The operand widths are in the types. The one further check is SETEXTRAKEY's key: 0, 1 or 2, since the source has
only A, B and C and key = 3 is refused (30_encoding.md R75, R85). -/
def Instr.wellFormed : Instr → Bool
  | .init => true
  | .sethandler _ => true
  | .setextrakey key _ => key != 3
  | .showSegs _ _ _ _ => true
  | .shownum _ _ => true
  | .clear => true
  | .setleds _ _ => true
  | .clearleds _ => true
  | .poll _ => true
  | .tick => true

end Sys2Proof
end

