-- ==== Sys2Proof/Decode.lean ====
section
/-! DEFINITION. Ports, refusal reasons, the decoder (total on every word and every byte list), the encoder, and the
opcode table as data. -/

namespace Sys2Proof

/-- Who delivers a word (30_encoding.md R84). -/
inductive Port where
  | host
  | timer
deriving DecidableEq, Repr

/-- The refusal reasons (60_exceptions.md R223). -/
inductive Reason where
  | illegalOpcode
  | reservedBits
  | badKey
  | tickFromHost
  | notTimerCommand
  | notInitialised
deriving DecidableEq, Repr

/-- The reason codes (R223). -/
def Reason.code : Reason → Nat
  | .illegalOpcode => 1
  | .reservedBits => 2
  | .badKey => 3
  | .tickFromHost => 4
  | .notTimerCommand => 5
  | .notInitialised => 6

/-- The field c[lo+len-1:lo] of a command word (00_scope.md R11). -/
abbrev field (c : Word) (lo len : Nat) : BitVec len := c.extractLsb' lo len

/-- The TICK word (30_encoding.md R82). -/
def tickWord : Word := 0x4000000000000000

/-- Accept `i` if the reserved field `r` is zero (30_encoding.md R71, R85 item 2). -/
def unlessReserved {α : Type} {n : Nat} (r : BitVec n) (i : Except Reason α) : Except Reason α :=
  if r = 0 then i else .error .reservedBits

/-- The HOST port: opcode, then reserved bits, then key or port (30_encoding.md R84, 60_exceptions.md R224). -/
def decodeHost (c : Word) : Except Reason Instr :=
  match field c 56 8 with
  | 0x01#8 => unlessReserved (field c 0 56) (.ok .init)
  | 0x02#8 => unlessReserved (field c 16 40) (.ok (.sethandler (field c 0 16)))
  | 0x03#8 =>
    unlessReserved (field c 10 46)
      (if field c 8 2 = 3 then .error .badKey else .ok (.setextrakey (field c 8 2) (field c 0 8)))
  | 0x10#8 =>
    unlessReserved (field c 32 24)
      (.ok (.showSegs (field c 0 8) (field c 8 8) (field c 16 8) (field c 24 8)))
  | 0x11#8 => unlessReserved (field c 24 32) (.ok (.shownum (field c 0 16) (field c 16 8)))
  | 0x12#8 => unlessReserved (field c 0 56) (.ok .clear)
  | 0x20#8 => unlessReserved (field c 16 40) (.ok (.setleds (field c 0 8) (field c 8 8)))
  | 0x21#8 => unlessReserved (field c 8 48) (.ok (.clearleds (field c 0 8)))
  | 0x30#8 => unlessReserved (field c 32 24) (.ok (.poll (field c 0 32)))
  | 0x40#8 => unlessReserved (field c 0 56) (.error .tickFromHost)
  | _ => .error .illegalOpcode

/-- The TIMER port: the whole word is TICK, or it is refused (30_encoding.md R84). -/
def decodeTimer (c : Word) : Except Reason Instr :=
  if c = tickWord then .ok .tick else .error .notTimerCommand

/-- Decoding, total on every word and every port (30_encoding.md R84). -/
def decode (p : Port) (c : Word) : Except Reason Instr :=
  match p with
  | .timer => decodeTimer c
  | .host => decodeHost c

/-- The port that delivers a command (30_encoding.md R72, R82). -/
def Instr.port : Instr → Port
  | .tick => .timer
  | _ => .host

/-- The opcode c[63:56] (30_encoding.md R72). -/
def Instr.opcode : Instr → BitVec 8
  | .init => 0x01
  | .sethandler _ => 0x02
  | .setextrakey _ _ => 0x03
  | .showSegs _ _ _ _ => 0x10
  | .shownum _ _ => 0x11
  | .clear => 0x12
  | .setleds _ _ => 0x20
  | .clearleds _ => 0x21
  | .poll _ => 0x30
  | .tick => 0x40

/-- The word whose field at bit `lo` is v and whose other bits are 0 (00_scope.md R11). -/
def place {n : Nat} (v : BitVec n) (lo : Nat) : Word := v.setWidth 64 <<< lo

/-- The operand fields of a command, every reserved bit 0 (30_encoding.md R71, R73-R83). -/
def Instr.operands : Instr → Word
  | .init => 0
  | .sethandler h => place h 0
  | .setextrakey key pin => place key 8 ||| place pin 0
  | .showSegs d0 d1 d2 d3 => place d3 24 ||| place d2 16 ||| place d1 8 ||| place d0 0
  | .shownum n start => place start 16 ||| place n 0
  | .clear => 0
  | .setleds bits mask => place mask 8 ||| place bits 0
  | .clearleds mask => place mask 0
  | .poll now => place now 0
  | .tick => 0

/-- The command word of a command: the opcode in c[63:56], the operand fields below (30_encoding.md R70). -/
def encode (i : Instr) : Word := place i.opcode 56 ||| i.operands

/-- The word of POLL with a W-bit `now`; `encode (.poll now)` for W = 32 (R81). -/
def pollWord {W : Nat} (now : BitVec W) : Word := place (0x30 : BitVec 8) 56 ||| place now 0

/-! Decoding on a block whose clock has W bits (00_scope.md R9, D24). POLL is the one command with a W-bit operand. -/

/-- A command on such a block. -/
inductive Command (W : Nat) where
  /-- POLL now (R81) -/
  | poll (now : BitVec W)
  /-- every other command -/
  | other (i : Instr)
deriving DecidableEq, Repr

/-- Decoding: POLL's reserved bits are those above its W-bit operand (R71, R81, R84). `decode` is this at W = 32. -/
def decodeCommand (W : Nat) (p : Port) (c : Word) : Except Reason (Command W) :=
  if p = .host ∧ field c 56 8 = 0x30 then unlessReserved (field c W (56 - W)) (.ok (.poll (field c 0 W)))
  else (decode p c).map .other

/-! The opcode table as data. -/

/-- One row: the words with `word &&& mask = bits` on `port` (30_encoding.md R72-R82, spec/opcode_table.json). -/
structure OpcodeRow where
  mnemonic : String
  bits : Word
  mask : Word
  port : Port
deriving DecidableEq, Repr

/-- Does the row's pattern match the word? -/
def OpcodeRow.matches (r : OpcodeRow) (c : Word) : Bool := c &&& r.mask == r.bits

/-- The ten rows (30_encoding.md R72-R82). -/
def opcodeTable : List OpcodeRow :=
  [⟨"init", 0x0100000000000000, 0xFFFFFFFFFFFFFFFF, .host⟩,
   ⟨"sethandler", 0x0200000000000000, 0xFFFFFFFFFFFF0000, .host⟩,
   ⟨"setextrakey", 0x0300000000000000, 0xFFFFFFFFFFFFFC00, .host⟩,
   ⟨"show", 0x1000000000000000, 0xFFFFFFFF00000000, .host⟩,
   ⟨"shownum", 0x1100000000000000, 0xFFFFFFFFFF000000, .host⟩,
   ⟨"clear", 0x1200000000000000, 0xFFFFFFFFFFFFFFFF, .host⟩,
   ⟨"setleds", 0x2000000000000000, 0xFFFFFFFFFFFF0000, .host⟩,
   ⟨"clearleds", 0x2100000000000000, 0xFFFFFFFFFFFFFF00, .host⟩,
   ⟨"poll", 0x3000000000000000, 0xFFFFFFFF00000000, .host⟩,
   ⟨"tick", 0x4000000000000000, 0xFFFFFFFFFFFFFFFF, .timer⟩]

/-- The row's mnemonic of a command, as the table spells it. -/
def Instr.mnemonic : Instr → String
  | .init => "init"
  | .sethandler _ => "sethandler"
  | .setextrakey _ _ => "setextrakey"
  | .showSegs _ _ _ _ => "show"
  | .shownum _ _ => "shownum"
  | .clear => "clear"
  | .setleds _ _ => "setleds"
  | .clearleds _ => "clearleds"
  | .poll _ => "poll"
  | .tick => "tick"

/-! Command words carried as bytes (20_memory.md R52: byte 0 is bits [7:0]). -/

/-- The 8 bytes of a word, byte 0 first (R52). -/
def bytesOfWord (c : Word) : List Byte :=
  [field c 0 8, field c 8 8, field c 16 8, field c 24 8, field c 32 8, field c 40 8, field c 48 8, field c 56 8]

/-- Why a byte list holds no command: too few bytes for the one 64-bit length (R70, R86; log 15), or a refused word. -/
inductive Reject where
  | incomplete
  | refused (r : Reason)
deriving DecidableEq, Repr

/-- The first word of a byte list and the bytes after it (R52, R86). -/
def takeWord : List Byte → Option (Word × List Byte)
  | b0 :: b1 :: b2 :: b3 :: b4 :: b5 :: b6 :: b7 :: rest =>
    some (b7 ++ b6 ++ b5 ++ b4 ++ b3 ++ b2 ++ b1 ++ b0, rest)
  | _ => none

/-- Decoding a byte list: total, rejecting by name (R52, R84, R86). -/
def decodeBytes (p : Port) (bs : List Byte) : Except Reject (Instr × List Byte) :=
  match takeWord bs with
  | none => .error .incomplete
  | some (c, rest) =>
    match decode p c with
    | .ok i => .ok (i, rest)
    | .error r => .error (.refused r)

/-- The port that delivers a word of the opcode table: TIMER for the TICK word alone (R82, R84; log 9). -/
def portOf (c : Word) : Port := if c = tickWord then .timer else .host

/-- The word whose table bits are `w`: `nbits` bits given, every bit above them 0 (R70). -/
def tableWord (nbits w : Nat) : Word := BitVec.ofNat 64 (w % 2 ^ nbits)

/-- What the decoder reads from a table word laid out as the transport stores it (R52, R84). -/
def decodeTableWord (nbits w : Nat) : Option Instr :=
  match decodeBytes (portOf (tableWord nbits w)) (bytesOfWord (tableWord nbits w)) with
  | .ok (i, _) => some i
  | .error _ => none

end Sys2Proof
end

