-- ==== Sys2Proof/Machine/State.lean ====
section
/-! DEFINITION. The machine's state as plain data, its faults and refusals, and the state at power-on. -/

namespace Sys2Proof.Machine

/-- One event of the pin trace (20_memory.md R55). -/
inductive PinEvent where
  | cfgOut (p : PinId)
  | cfgIn (p : PinId)
  | write (p : PinId) (level : Bool)
  | read (p : PinId) (level : Bool)
deriving DecidableEq, Repr

/-- One delivery `emit(h, w)` (42_classifier.md R178). -/
structure Emit where
  handler : HandlerId
  word : EventWord
deriving DecidableEq, Repr

/-- What is recorded beside `refused`: the reason and the command word (60_exceptions.md R223). -/
structure RefusalRecord where
  reason : Reason
  word : Word
deriving DecidableEq, Repr

/-- A word that arrives on a port. For a HOST command, `gaps` says how many TICKs TIMER takes at the first, second, ...
boundary between two of the command's own atomic steps (20_memory.md R57, R58; log 5). -/
structure Arrival where
  port : Port
  word : Word
  gaps : List Nat
deriving DecidableEq, Repr

end Sys2Proof.Machine

namespace Sys2Proof.Sized

open Sys2Proof.Machine

/-- The state record (10_state.md R21), the block's observable output (20_memory.md R55, 70_reset_and_hazards.md R254)
and the model's own schedule fields (INVENTORY.md, State), for a block of any size: W = CLOCK_WIDTH, CW = COUNTER_WIDTH,
ND = NUM_DIGITS, NS = NUM_SLOTS, NX = NUM_EXTRA, NB = NUM_DEBOUNCED (00_scope.md R9). -/
structure State (W CW ND NS NX NB : Nat) where
  /-- DigitPattern (R22) -/
  digit : Vector Byte ND
  /-- LedPattern (R23) -/
  led : Byte
  /-- RawSwitchSample (R24) -/
  raw : Byte
  /-- SwitchDebounceTimer (R25) -/
  dbt : Vector (BitVec CW) NB
  /-- StableKeyStatus (R26) -/
  stable : Byte
  /-- lastStableKeyStatus (R27) -/
  lastStable : Byte
  /-- lastKeyComboForDoubleClick (R27) -/
  lastCombo : Byte
  /-- doubleClickDeadline (R27) -/
  dblDeadline : BitVec W
  /-- autoRepeatDeadline (R27) -/
  rptDeadline : BitVec W
  /-- longPressFlag (R27, R28) -/
  longPress : Bool
  /-- RotatingDigitIndex (R29) -/
  idx : Fin NS
  /-- the handler slot, 0 = none (R30) -/
  handler : HandlerId
  /-- extra keys configured (R31) -/
  extraCfg : Vector Bool NX
  /-- extra key pins (R31) -/
  extraPin : Vector PinId NX
  /-- R33 -/
  initialised : Bool
  /-- R33 -/
  timerEnabled : Bool
  /-- the sticky refusal mark (R33, 60_exceptions.md R221) -/
  refused : Bool
  /-- the first refusal's reason and word (60_exceptions.md R223) -/
  firstRefusal : Option RefusalRecord
  /-- the pin trace, oldest event first (20_memory.md R55; log 10) -/
  trace : List PinEvent
  /-- the deliveries, oldest first (20_memory.md R55; log 10) -/
  emits : List Emit
  /-- MODEL: the arrivals still to come (log 5, log 9) -/
  inbox : List Arrival
  /-- MODEL: TICKs at the coming boundaries of the command in progress (log 5) -/
  gaps : List Nat
  /-- MODEL: ENV's answers to the next pin reads (log 4) -/
  env : List Bool
  /-- MODEL: pin reads answered so far (log 4) -/
  draws : Nat
deriving DecidableEq, Repr

end Sys2Proof.Sized

namespace Sys2Proof.Machine

/-- The state of this hardware: W = 32, COUNTER_WIDTH = 8, NUM_DIGITS = 4, NUM_SLOTS = 5, NUM_EXTRA = 3,
NUM_DEBOUNCED = 6 (00_scope.md R9). -/
abbrev State := Sized.State 32 8 4 5 3 6

/-- Why the machine stops. The block itself raises no exception (60_exceptions.md R220). -/
inductive Fault where
  /-- Raised by TICK while `timerEnabled` is false: "TIMER has no step" then (40_refresh.md R101, R108), so there is no
  next state. SAFE: the model stops where the block has no behaviour (log 7). -/
  | timerDisabled
deriving DecidableEq, Repr

/-- Why an instruction has no meaning. The spec's own refusals (60_exceptions.md R221) are next states, not these. -/
inductive Refusal where
  /-- Raised by `exec` for an instruction whose meaning is not written. SAFE. No arm of this model raises it. -/
  | notModelled (mnemonic : String)
deriving DecidableEq, Repr

/-- Power-on (10_state.md R33, 70_reset_and_hazards.md R250). The spec gives `initialised`, `timerEnabled` and `refused`;
every other register's value is the model's choice, 0 or false, read by no operation before INIT (DESIGN CHOICE, log 1).
Nothing has been delivered, driven or emitted yet. -/
def State.reset : State where
  digit := #v[0, 0, 0, 0]
  led := 0
  raw := 0
  dbt := #v[0, 0, 0, 0, 0, 0]
  stable := 0
  lastStable := 0
  lastCombo := 0
  dblDeadline := 0
  rptDeadline := 0
  longPress := false
  idx := 0
  handler := 0
  extraCfg := #v[false, false, false]
  extraPin := #v[0, 0, 0]
  initialised := false
  timerEnabled := false
  refused := false
  firstRefusal := none
  trace := []
  emits := []
  inbox := []
  gaps := []
  env := []
  draws := 0

end Sys2Proof.Machine
end

