-- ==== Sys2Proof/Machine/Operands.lean ====
section
/-! DEFINITION. Operands and values computed from them: time predicates, decimal digits, key selection, event words. -/

namespace Sys2Proof.Machine

variable {W CW ND NS NX NB : Nat}

/-! Time (00_scope.md R13, 42_classifier.md R174, R175). -/

/-- `before(a, b)`: a strictly earlier than deadline b. MODULAR: `(a -_W b) >= 2^(W-1)`;
PLAIN_UNSIGNED: `a < b` (R13). -/
def before (P : Sized.Params W CW ND NS NX NB) (a b : BitVec W) : Bool :=
  match P.timeCompare with
  | .modular => decide (2 ^ (W - 1) ≤ (a - b).toNat)
  | .plainUnsigned => decide (a.toNat < b.toNat)

/-- `reached(a, b)` is `not before(a, b)` (R13). -/
def reached (P : Sized.Params W CW ND NS NX NB) (a b : BitVec W) : Bool := !before P a b

/-- The repeat reload (R174). -/
def reload (P : Sized.Params W CW ND NS NX NB) (d now : BitVec W) : BitVec W :=
  match P.repeatBase with
  | .deadline => d + P.tRepeat
  | .now => now + P.tRepeat

/-! SHOW's and SHOWNUM's patterns (41_display.md R134, R138-R142). -/

/-- The operand SHOW writes at position p; a position after its four operands is blank (R134, 30_encoding.md R88). -/
def showPattern (d0 d1 d2 d3 : Byte) (p : Fin ND) : Byte :=
  match p.val with
  | 0 => d0
  | 1 => d1
  | 2 => d2
  | 3 => d3
  | _ => 0

/-- `DIV[p]`: 1000, 100, 10, 1 for four digits, "successive powers of ten" up to the last position (R138). -/
def divisor (p : Fin ND) : Nat := 10 ^ (ND - 1 - p.val)

/-- The decimal digit of n shown at position p, `(n / DIV[p]) mod 10` (R138, R140, R141). -/
def decimalDigit (n : BitVec 16) (p : Fin ND) : Fin 10 :=
  ⟨n.toNat / divisor p % 10, Nat.mod_lt _ (by decide)⟩

/-- The pattern SHOWNUM writes at position p (R138, R139). -/
def glyph (P : Sized.Params W CW ND NS NX NB) (n : BitVec 16) (start : BitVec 8) (p : Fin ND) : Byte :=
  if start.toNat < ND then P.digitFont[decimalDigit n p] else P.dpPattern

/-- The positions SHOWNUM writes, ascending: from `start` on in range, all of them out of range (R138, R139, R142). -/
def shownPositions (start : BitVec 8) : List (Fin ND) :=
  if start.toNat < ND then (List.finRange ND).filter (fun p => start.toNat ≤ p.val) else List.finRange ND

/-! SETEXTRAKEY's key (30_encoding.md R75). -/

/-- 0 = A, 1 = B, 2 = C; a value of NUM_EXTRA or more names no key. -/
def keyIndex (key : BitVec 2) : Option (Fin NX) :=
  if h : key.toNat < NX then some ⟨key.toNat, h⟩ else none

/-! Event words (42_classifier.md R178). -/

/-- `EVENT_CODE[kind] | zext_16(stable)` (R178). -/
def eventWord (P : Sized.Params W CW ND NS NX NB) (k : EventKind) (stable : Byte) : EventWord :=
  P.eventCode.of k ||| stable.setWidth 16

end Sys2Proof.Machine
end

