-- ==== Sys2Proof/Machine/Flags.lean ====
section
/-! DEFINITION. The flags `newKeyPress` and `longPress` and what computes them (10_state.md R28). -/

namespace Sys2Proof.Machine

variable {W CW ND NS NX NB : Nat}

/-- What one debounce lane ends a POLL with (42_classifier.md R164). -/
structure Lane (CW : Nat) where
  dbt : BitVec CW
  stable : Bool
  /-- the lane adopted a press: `newKeyPress` is set -/
  newPress : Bool
deriving DecidableEq, Repr

/-- The lane rule, from the lane's counter, raw bit and stable bit (R164, R165). -/
def laneStep (P : Sized.Params W CW ND NS NX NB) (dbt : BitVec CW) (r stable : Bool) : Lane CW :=
  if dbt ≠ 0 then ⟨dbt - 1, stable, false⟩
  else if r && !stable then ⟨P.debounce, true, true⟩
  else if !r && stable then ⟨P.debounce, false, false⟩
  else ⟨dbt, stable, false⟩

/-- `longPress <- false`: the zero and change branches (R167, R168). -/
def clearLongPress (s : Sized.State W CW ND NS NX NB) : Sized.State W CW ND NS NX NB := { s with longPress := false }

/-- `longPress <- true`: HOLD; AUTO leaves it true (R172, R173). -/
def setLongPress (s : Sized.State W CW ND NS NX NB) : Sized.State W CW ND NS NX NB := { s with longPress := true }

/-- The kind a due repeat has: AUTO once a HOLD was emitted, HOLD before (R172). -/
def repeatKind (longPress : Bool) : EventKind := if longPress then .auto else .hold

/-- The kind of a new press: DOUBLE for the last combination within its window, else PRESS (R169). -/
def pressKind (P : Sized.Params W CW ND NS NX NB) (now : BitVec W) (s : Sized.State W CW ND NS NX NB) : EventKind :=
  if s.stable = s.lastCombo ∧ before P now s.dblDeadline = true then .double else .press

end Sys2Proof.Machine
end

