-- ==== Sys2Proof/Machine/Bits.lean ====
section
/-! DEFINITION. Writing one bit of a byte. -/

namespace Sys2Proof.Machine

/-- `v[i] <- b`: bit i alone (00_scope.md R12). -/
def setBit (v : Byte) (i : Nat) (b : Bool) : Byte :=
  if b then v ||| (1#8 <<< i) else v &&& ~~~(1#8 <<< i)

end Sys2Proof.Machine
end

