-- ==== Sys2Proof/Machine/Ops.lean ====
section
/-! DEFINITION. The named operations over the state: pin primitives, state-cell writes, refusal, delivery. -/

namespace Sys2Proof.Machine

variable {W CW ND NS NX NB : Nat}

/-! Pins (00_scope.md R12, 20_memory.md R55, R56). -/

/-- Append pin events, in order (20_memory.md R55). -/
def drive (es : List PinEvent) (s : Sized.State W CW ND NS NX NB) :
    Sized.State W CW ND NS NX NB := { s with trace := s.trace ++ es }

/-- The level ENV answers if pin `p` is read now: the next answer listed, else the free value (R56; log 4). -/
def envAnswer (p : PinId) (s : Sized.State W CW ND NS NX NB) : Bool :=
  match s.env with
  | l :: _ => l
  | [] => Config.envLevel s.draws p

/-- `readLevel(p)`: consume one answer and append the read event; no other effect (R55, R56). The value read is
`envAnswer p s`. -/
def readLevel (p : PinId) (s : Sized.State W CW ND NS NX NB) : Sized.State W CW ND NS NX NB :=
  { s with env := s.env.tail, draws := s.draws + 1, trace := s.trace ++ [.read p (envAnswer p s)] }

/-! State cells. Each is one atomic access (20_memory.md R53). -/

/-- `digit[p] <- b` -/
def writeDigit (p : Fin ND) (b : Byte) (s : Sized.State W CW ND NS NX NB) :
    Sized.State W CW ND NS NX NB := { s with digit := s.digit.set p b }

/-- `led <- led & ~mask` -/
def clearLedBits (mask : Byte) (s : Sized.State W CW ND NS NX NB) :
    Sized.State W CW ND NS NX NB := { s with led := s.led &&& ~~~mask }

/-- `led <- led | bits` -/
def setLedBits (bits : Byte) (s : Sized.State W CW ND NS NX NB) :
    Sized.State W CW ND NS NX NB := { s with led := s.led ||| bits }

/-- `raw[i] <- b`, one atomic bit write (20_memory.md R60). -/
def writeRawBit (i : Nat) (b : Bool) (s : Sized.State W CW ND NS NX NB) :
    Sized.State W CW ND NS NX NB := { s with raw := setBit s.raw i b }

/-- `handler <- h` -/
def writeHandler (h : HandlerId) (s : Sized.State W CW ND NS NX NB) :
    Sized.State W CW ND NS NX NB := { s with handler := h }

/-- `extraPin[k] <- pin; extraCfg[k] <- true` -/
def configureKey (k : Fin NX) (pin : PinId) (s : Sized.State W CW ND NS NX NB) : Sized.State W CW ND NS NX NB :=
  { s with extraPin := s.extraPin.set k pin, extraCfg := s.extraCfg.set k true }

/-! Refusal: the one shared way a command comes to have no effect (60_exceptions.md R221, R223). -/

/-- Set the sticky mark, keep the first reason and word, change nothing else (R221, R223; log 8). -/
def refuse (r : Reason) (c : Word) (s : Sized.State W CW ND NS NX NB) : Sized.State W CW ND NS NX NB :=
  { s with
    refused := true
    firstRefusal := match s.firstRefusal with
      | some x => some x
      | none => some ⟨r, c⟩ }

/-- A HOST command other than INIT, with its word c: refused NotInitialised before INIT, else its effect
(60_exceptions.md R222). The word recorded is the command's word. -/
def hostCommand (c : Word) (effect : Sized.State W CW ND NS NX NB → Sized.State W CW ND NS NX NB)
    (s : Sized.State W CW ND NS NX NB) : Host.Outcome (Sized.State W CW ND NS NX NB) Fault Refusal :=
  if s.initialised then .next (effect s) else .next (refuse .notInitialised c s)

/-- `emit(h, w)` (42_classifier.md R178). -/
def emit (w : EventWord) (s : Sized.State W CW ND NS NX NB) :
    Sized.State W CW ND NS NX NB := { s with emits := s.emits ++ [⟨s.handler, w⟩] }

end Sys2Proof.Machine
end

