-- ==== Sys2Proof/Machine/Refresh.lean ====
section
/-! DEFINITION. The refresh unit: TICK (40_refresh.md R100-R108). -/

namespace Sys2Proof.Machine

variable {W CW ND NS NX NB : Nat}

/-- OFF (00_scope.md R15). -/
def offLevel (P : Sized.Params W CW ND NS NX NB) : Bool := !P.digitOnLevel

/-- CLK_ACT (40_refresh.md, notation). -/
def clkActive (P : Sized.Params W CW ND NS NX NB) : Bool := !P.clkIdle

/-- Step 2: all digit-enables OFF, in order, always (R103). -/
def digitsOff (P : Sized.Params W CW ND NS NX NB) : List PinEvent :=
  (List.finRange ND).map (fun j => .write P.pinDigit[j] (offLevel P))

/-- One clock pulse (R105). -/
def clockPulse (P : Sized.Params W CW ND NS NX NB) :
    List PinEvent := [.write P.pinClk (clkActive P), .write P.pinClk P.clkIdle]

/-- One data bit: the data write, then one clock pulse (R105). -/
def shiftBit (P : Sized.Params W CW ND NS NX NB) (b : Bool) : List PinEvent := .write P.pinData b :: clockPulse P

/-- Step 3: the 8 bits MSB first, then the latch pulse with the data unchanged (R105). -/
def shiftOut (P : Sized.Params W CW ND NS NX NB) (b : Byte) : List PinEvent :=
  ([7, 6, 5, 4, 3, 2, 1, 0] : List Nat).flatMap (fun k => shiftBit P (b.getLsbD k)) ++ clockPulse P

/-- Step 4: digit-enable i ON for i < NUM_DIGITS, nothing at the slot after them (R106). -/
def enableSlot (P : Sized.Params W CW ND NS NX NB) (i : Fin NS) : List PinEvent :=
  if h : i.val < ND then [.write (P.pinDigit[i.val]) P.digitOnLevel] else []

/-- The byte shifted at slot i (R104). -/
def slotByte (P : Sized.Params W CW ND NS NX NB) (i : Fin NS) (s : Sized.State W CW ND NS NX NB) : Byte :=
  if h : i.val < ND then s.digit[i.val]
  else match P.slot4Byte with
    | .led => s.led

/-- Step 5: the slot after i, modulo NUM_SLOTS (R107). -/
def nextSlot (i : Fin NS) : Fin NS := ⟨(i.val + 1) % NS, Nat.mod_lt _ (Nat.lt_of_le_of_lt (Nat.zero_le _) i.isLt)⟩

/-- TICK as the listing of R108 has it: sample, disable, shift and latch, enable, advance. -/
def tick (P : Sized.Params W CW ND NS NX NB) (s : Sized.State W CW ND NS NX NB) : Sized.State W CW ND NS NX NB :=
  let i := s.idx
  let l := envAnswer P.pinSwRead s
  let s1 := writeRawBit i.val (l == P.swPressedLevel) (readLevel P.pinSwRead s)
  let s2 := drive (digitsOff P) s1
  let b := slotByte P i s2
  let s3 := drive (shiftOut P b) s2
  let s4 := drive (enableSlot P i) s3
  { s4 with idx := nextSlot i }

/-- TICK from TIMER, from the parameters (R100, R101). While `timerEnabled` is false TIMER has no step: the fault
`timerDisabled` (log 7). -/
def timerTick (P : Sized.Params W CW ND NS NX NB) (s : Sized.State W CW ND NS NX NB) :
    Host.Outcome (Sized.State W CW ND NS NX NB) Fault Refusal :=
  if s.timerEnabled then .next (tick P s) else .fault .timerDisabled

/-- TICK (R100). -/
def execTick (s : State) : Host.Outcome State Fault Refusal := timerTick Config.board s

end Sys2Proof.Machine
end

