-- ==== Sys2Proof/Machine/Interleave.lean ====
section
/-! DEFINITION. Atomic steps and the TICKs between them (20_memory.md R57, R58; 60_exceptions.md R227-R229). -/

namespace Sys2Proof.Machine

variable {W CW ND NS NX NB : Nat}

/-- n TICKs in a row, while TIMER may step (R57, 40_refresh.md R101). -/
def ticks (P : Sized.Params W CW ND NS NX NB) : Nat → Sized.State W CW ND NS NX NB → Sized.State W CW ND NS NX NB
  | 0, s => s
  | n + 1, s => ticks P n (if s.timerEnabled then tick P s else s)

/-- The boundary between two atomic steps of a HOST command. Entry to a TICK saves nothing, return restores nothing
(60_exceptions.md R228, R229): the TICKs this boundary holds run, then the command goes on. No entry left: no TICK
(log 5). While TIMER is disabled it has no step and none runs (log 7). -/
def gap (P : Sized.Params W CW ND NS NX NB) (s : Sized.State W CW ND NS NX NB) : Sized.State W CW ND NS NX NB :=
  match s.gaps with
  | [] => s
  | n :: rest => ticks P n { s with gaps := rest }

/-- A command's atomic steps in program order, with a boundary between each two (R57, R58). -/
def inOrder (P : Sized.Params W CW ND NS NX NB) : List (Sized.State W CW ND NS NX NB → Sized.State W CW ND NS NX NB) →
    Sized.State W CW ND NS NX NB → Sized.State W CW ND NS NX NB
  | [], s => s
  | [a], s => a s
  | a :: b :: rest, s => inOrder P (b :: rest) (gap P (a s))

end Sys2Proof.Machine
end

