-- ==== Sys2Proof/Machine/Classifier.lean ====
section
/-! DEFINITION. The classifier family: POLL (42_classifier.md R160-R179). -/

namespace Sys2Proof.Machine

variable {W CW ND NS NX NB : Nat}

/-! Step 1, the extra-key fold (R161). -/

/-- Fold extra key k into its raw bit. ATOMIC_BIT: one atomic bit write (R161). BYTE_RMW: two atomic steps, the read of
the pin and of `raw`, then the write of the whole byte, with a boundary between them (93_implementation_defined.md I7;
log 22). -/
def foldKey (P : Sized.Params W CW ND NS NX NB) (k : Fin NX) (s : Sized.State W CW ND NS NX NB) :
    Sized.State W CW ND NS NX NB :=
  let b := envAnswer s.extraPin[k] s == P.extraPressedLevel
  let s1 := readLevel s.extraPin[k] s
  match P.rawFold with
  | .atomicBit => writeRawBit P.extraKeyBit[k].val b s1
  | .byteRmw => { gap P s1 with raw := setBit s1.raw P.extraKeyBit[k].val b }

/-- The folds of the configured keys among `ks`, each followed by a boundary (R161, 20_memory.md R57). -/
def foldKeys (P : Sized.Params W CW ND NS NX NB) :
    List (Fin NX) → Sized.State W CW ND NS NX NB → Sized.State W CW ND NS NX NB
  | [], s => s
  | k :: ks, s => foldKeys P ks (if s.extraCfg[k] then gap P (foldKey P k s) else s)

/-! Step 2, the debounce lanes (R163, R164). -/

/-- Lane j's rule applied to the snapshot r and the lane's own counter and stable bit (R163, R164). -/
def laneAt (P : Sized.Params W CW ND NS NX NB) (r : Byte) (s : Sized.State W CW ND NS NX NB) (j : Fin NB) : Lane CW :=
  laneStep P s.dbt[j] (r.getLsbD j) (s.stable.getLsbD j)

/-- One lane of step 2; the Bool is `newKeyPress` (R164). -/
def debounceLane (P : Sized.Params W CW ND NS NX NB) (r : Byte) (acc : Sized.State W CW ND NS NX NB × Bool)
    (j : Fin NB) : Sized.State W CW ND NS NX NB × Bool :=
  let ln := laneAt P r acc.1 j
  ({ acc.1 with dbt := acc.1.dbt.set j ln.dbt, stable := setBit acc.1.stable j ln.stable }, acc.2 || ln.newPress)

/-- Step 2: the lanes 0 to NUM_DEBOUNCED - 1, `newKeyPress` false at first (R163, R164). -/
def debounce (P : Sized.Params W CW ND NS NX NB) (r : Byte) (s : Sized.State W CW ND NS NX NB) :
    Sized.State W CW ND NS NX NB × Bool :=
  (List.finRange NB).foldl (debounceLane P r) (s, false)

/-! Step 3, classification (R167-R174). -/

/-- The zero branch (R167). -/
def zeroBranch (s : Sized.State W CW ND NS NX NB) :
    Sized.State W CW ND NS NX NB := { clearLongPress s with rptDeadline := 0 }

/-- The change branch (R168-R171). -/
def changeBranch (P : Sized.Params W CW ND NS NX NB) (now : BitVec W) (newKeyPress : Bool)
    (s : Sized.State W CW ND NS NX NB) : Sized.State W CW ND NS NX NB × Option EventKind :=
  let s1 := clearLongPress s
  if newKeyPress then
    ({ s1 with lastCombo := s1.stable, dblDeadline := now + P.tDblclick, rptDeadline := now + P.tHold },
      some (pressKind P now s1))
  else ({ s1 with rptDeadline := now + P.tHold }, none)

/-- The held branch (R172-R174). -/
def heldBranch (P : Sized.Params W CW ND NS NX NB) (now : BitVec W) (s : Sized.State W CW ND NS NX NB) :
    Sized.State W CW ND NS NX NB × Option EventKind :=
  if reached P now s.rptDeadline then
    ({ setLongPress s with rptDeadline := reload P s.rptDeadline now }, some (repeatKind s.longPress))
  else (s, none)

/-- Step 3: exactly one branch, tested in the order zero, change, held (R167, R176). -/
def classify (P : Sized.Params W CW ND NS NX NB) (now : BitVec W) (newKeyPress : Bool)
    (s : Sized.State W CW ND NS NX NB) : Sized.State W CW ND NS NX NB × Option EventKind :=
  if s.stable = 0 then (zeroBranch s, none)
  else if s.stable ≠ s.lastStable then changeBranch P now newKeyPress s
  else heldBranch P now s

/-! Steps 5 and 4, commit and delivery (R177, R178). -/

/-- Step 5 (R177). -/
def commit (s : Sized.State W CW ND NS NX NB) : Sized.State W CW ND NS NX NB := { s with lastStable := s.stable }

/-- Step 4: deliver to the handler slot, unless there is no event or no handler (R178; log 11). -/
def deliver (P : Sized.Params W CW ND NS NX NB) (kind : Option EventKind) (s : Sized.State W CW ND NS NX NB) :
    Sized.State W CW ND NS NX NB :=
  match kind with
  | none => s
  | some k => if s.handler ≠ 0 then emit (eventWord P k s.stable) s else s

/-- The snapshot of `raw` and all the rest of the POLL, one atomic step (R162, R179). -/
def snapshotStep (P : Sized.Params W CW ND NS NX NB) (now : BitVec W) (s : Sized.State W CW ND NS NX NB) :
    Sized.State W CW ND NS NX NB :=
  let d := debounce P s.raw s
  let c := classify P now d.2 d.1
  deliver P c.2 (commit c.1)

/-- A whole POLL (R179). -/
def pollWith (P : Sized.Params W CW ND NS NX NB) (now : BitVec W) (s : Sized.State W CW ND NS NX NB) :
    Sized.State W CW ND NS NX NB := snapshotStep P now (foldKeys P (List.finRange NX) s)

/-- POLL on a block with the parameters P: its word holds a W-bit `now` (30_encoding.md R81). -/
def pollCommand (P : Sized.Params W CW ND NS NX NB) (now : BitVec W) (s : Sized.State W CW ND NS NX NB) :
    Host.Outcome (Sized.State W CW ND NS NX NB) Fault Refusal :=
  hostCommand (pollWord now) (pollWith P now) s

/-- POLL now (R160, R179). -/
def execPoll (now : Time) (s : State) : Host.Outcome State Fault Refusal := pollCommand Config.board now s

end Sys2Proof.Machine
end

