-- ==== Sys2Proof/Machine/Control.lean ====
section
/-! DEFINITION. The control family: INIT, SETHANDLER, SETEXTRAKEY (43_control.md). -/

namespace Sys2Proof.Machine

variable {W CW ND NS NX NB : Nat}

/-! The effects, from the parameters (00_scope.md R9). -/

/-- INIT's pin sequence, 13 events for four digits (43_control.md R202). -/
def initPins (P : Sized.Params W CW ND NS NX NB) : List PinEvent :=
  (List.finRange ND).map (fun j => .cfgOut P.pinDigit[j])
  ++ [.cfgOut P.pinClk, .cfgOut P.pinData, .cfgIn P.pinSwRead]
  ++ digitsOff P
  ++ [.write P.pinClk P.clkIdle, .write P.pinData false]

/-- INIT's state writes, in the listing of R201; `timerEnabled <- true` is the last (R203). -/
def initState (s : Sized.State W CW ND NS NX NB) : Sized.State W CW ND NS NX NB :=
  { s with
    digit := Vector.replicate ND 0
    led := 0
    raw := 0
    dbt := Vector.replicate NB 0
    stable := 0
    lastStable := 0
    lastCombo := 0
    dblDeadline := 0
    rptDeadline := 0
    longPress := false
    idx := ⟨0, Nat.lt_of_le_of_lt (Nat.zero_le _) s.idx.isLt⟩
    handler := 0
    extraCfg := Vector.replicate NX false
    extraPin := Vector.replicate NX 0
    initialised := true
    timerEnabled := true }

/-- INIT's effect: TIMER is disabled first and enabled at the end (R201-R203). -/
def initWith (P : Sized.Params W CW ND NS NX NB) (s : Sized.State W CW ND NS NX NB) : Sized.State W CW ND NS NX NB :=
  initState (drive (initPins P) { s with timerEnabled := false })

/-- SETEXTRAKEY's command (R209, R211). A key that is no extra key is refused BadKey, before the NotInitialised check
(60_exceptions.md R224; log 16). -/
def setextrakeyCommand (key : BitVec 2) (pin : PinId) (s : Sized.State W CW ND NS NX NB) :
    Host.Outcome (Sized.State W CW ND NS NX NB) Fault Refusal :=
  match keyIndex key with
  | none => .next (refuse .badKey (encode (.setextrakey key pin)) s)
  | some k => hostCommand (encode (.setextrakey key pin)) (fun s => configureKey k pin (drive [.cfgIn pin] s)) s

/-! The commands. -/

/-- INIT: one atomic step, accepted in every state (R200, R204). -/
def execInit (s : State) : Host.Outcome State Fault Refusal := .next (initWith Config.board s)

/-- SETHANDLER h (R206). -/
def execSethandler (h : HandlerId) (s : State) : Host.Outcome State Fault Refusal :=
  hostCommand (encode (.sethandler h)) (writeHandler h) s

/-- SETEXTRAKEY key, pin (R209, R211). -/
def execSetextrakey (key : BitVec 2) (pin : PinId) (s : State) : Host.Outcome State Fault Refusal :=
  setextrakeyCommand key pin s

end Sys2Proof.Machine
end

