-- ==== Sys2Proof/Machine/Display.lean ====
section
/-! DEFINITION. The display family: SHOW, SHOWNUM, CLEAR, SETLEDS, CLEARLEDS (41_display.md). -/

namespace Sys2Proof.Machine

variable {W CW ND NS NX NB : Nat}

/-! The effects, from the parameters (00_scope.md R9). -/

/-- One atomic digit write per position of `ps`, in their order (20_memory.md R57). -/
def writeDigits (P : Sized.Params W CW ND NS NX NB) (ps : List (Fin ND)) (pattern : Fin ND → Byte) :
    Sized.State W CW ND NS NX NB → Sized.State W CW ND NS NX NB :=
  inOrder P (ps.map (fun p => writeDigit p (pattern p)))

/-- SHOW's atomic digit writes, in position order (R134). -/
def showWith (P : Sized.Params W CW ND NS NX NB) (d0 d1 d2 d3 : Byte) :
    Sized.State W CW ND NS NX NB → Sized.State W CW ND NS NX NB :=
  writeDigits P (List.finRange ND) (showPattern d0 d1 d2 d3)

/-- SHOWNUM's atomic digit writes, one per position written, ascending (R138, R139). -/
def shownumWith (P : Sized.Params W CW ND NS NX NB) (n : BitVec 16) (start : BitVec 8) :
    Sized.State W CW ND NS NX NB → Sized.State W CW ND NS NX NB :=
  writeDigits P (shownPositions start) (glyph P n start)

/-- CLEAR's atomic digit writes of 0 (R146). -/
def clearWith (P : Sized.Params W CW ND NS NX NB) : Sized.State W CW ND NS NX NB → Sized.State W CW ND NS NX NB :=
  writeDigits P (List.finRange ND) (fun _ => 0)

/-- SETLEDS's two atomic writes: clear the mask bits, then set the bits (R150). -/
def setledsWith (P : Sized.Params W CW ND NS NX NB) (bits mask : Byte) :
    Sized.State W CW ND NS NX NB → Sized.State W CW ND NS NX NB :=
  inOrder P [clearLedBits mask, setLedBits bits]

/-! The commands. -/

/-- SHOW d0, d1, d2, d3 (R134). -/
def execShowSegs (d0 d1 d2 d3 : Byte) (s : State) : Host.Outcome State Fault Refusal :=
  hostCommand (encode (.showSegs d0 d1 d2 d3)) (showWith Config.board d0 d1 d2 d3) s

/-- SHOWNUM n, start (R138, R139). -/
def execShownum (n : BitVec 16) (start : BitVec 8) (s : State) : Host.Outcome State Fault Refusal :=
  hostCommand (encode (.shownum n start)) (shownumWith Config.board n start) s

/-- CLEAR (R146). -/
def execClear (s : State) : Host.Outcome State Fault Refusal := hostCommand (encode .clear) (clearWith Config.board) s

/-- SETLEDS set, mask (R150). -/
def execSetleds (bits mask : Byte) (s : State) : Host.Outcome State Fault Refusal :=
  hostCommand (encode (.setleds bits mask)) (setledsWith Config.board bits mask) s

/-- CLEARLEDS mask: one atomic write (R154). -/
def execClearleds (mask : Byte) (s : State) : Host.Outcome State Fault Refusal :=
  hostCommand (encode (.clearleds mask)) (clearLedBits mask) s

end Sys2Proof.Machine
end

