-- ==== Sys2Proof/Machine/Dispatch.lean ====
section
/-! DEFINITION. Dispatch: one arm per constructor of Instr. -/

namespace Sys2Proof.Machine

def exec (i : Instr) (s : State) : Host.Outcome State Fault Refusal :=
  match i with
  | .init => Sys2Proof.Machine.execInit s
  | .sethandler h => Sys2Proof.Machine.execSethandler h s
  | .setextrakey key pin => Sys2Proof.Machine.execSetextrakey key pin s
  | .showSegs d0 d1 d2 d3 => Sys2Proof.Machine.execShowSegs d0 d1 d2 d3 s
  | .shownum n start => Sys2Proof.Machine.execShownum n start s
  | .clear => Sys2Proof.Machine.execClear s
  | .setleds bits mask => Sys2Proof.Machine.execSetleds bits mask s
  | .clearleds mask => Sys2Proof.Machine.execClearleds mask s
  | .poll now => Sys2Proof.Machine.execPoll now s
  | .tick => Sys2Proof.Machine.execTick s

end Sys2Proof.Machine
end

