-- ==== Sys2Proof/Machine/Step.lean ====
section
/-! DEFINITION. One step: the next arrival is decoded on its port and run, or refused. -/

namespace Sys2Proof.Machine

/-- Take arrival `a` off the inbox, leaving `rest`: its interior TICK counts become those of the command in progress
(20_memory.md R57, R58; log 5). -/
def accept {W CW ND NS NX NB : Nat} (a : Arrival) (rest : List Arrival) (s : Sized.State W CW ND NS NX NB) :
    Sized.State W CW ND NS NX NB :=
  { s with inbox := rest, gaps := a.gaps }

/-- One step (00_scope.md R7, R8; 30_encoding.md R84; 60_exceptions.md R221). With nothing arriving the block is idle and
unchanged (70_reset_and_hazards.md R252, R254; log 6). A word that does not decode is refused and the block goes on. -/
def step (s : State) : Host.Outcome State Fault Refusal :=
  match s.inbox with
  | [] => .next s
  | a :: rest =>
    match decode a.port a.word with
    | .ok i => exec i (accept a rest s)
    | .error r => .next (refuse r a.word (accept a rest s))

/-- `s` with the instruction whose table bits are `w` as the next arrival: TICK on the TIMER port, every other word on
the HOST port, with no TICK inside it (log 9). -/
def State.withFetchWord (s : State) (nbits w : Nat) : State :=
  { s with inbox := ⟨portOf (tableWord nbits w), tableWord nbits w, []⟩ :: s.inbox }

end Sys2Proof.Machine
end

