-- ==== Sys2Proof/Machine/Assembler.lean ====
section
/-! DEFINITION. The assembly syntax, its operand defaults and its aliases (30_encoding.md R87, R88): one line of text to
one command. Letter case, blanks and out-of-range numbers: log 20. -/

namespace Sys2Proof.Machine

/-! Text helpers. -/

/-- A blank between words. -/
def isBlank (c : Char) : Bool := c == ' ' || c == '\t'

/-- Without the blanks at both ends. -/
def trimBlanks (cs : List Char) : List Char := ((cs.dropWhile isBlank).reverse.dropWhile isBlank).reverse

/-- Split at every comma (R87). -/
def splitCommas : List Char → List (List Char)
  | [] => [[]]
  | c :: cs =>
    if c = ',' then [] :: splitCommas cs
    else match splitCommas cs with
      | [] => [[c]]
      | w :: ws => (c :: w) :: ws

/-- The value of a digit in base 16, if it is one. -/
def digitValue (c : Char) : Option Nat :=
  if '0'.toNat ≤ c.toNat ∧ c.toNat ≤ '9'.toNat then some (c.toNat - '0'.toNat)
  else if 'a'.toNat ≤ c.toNat ∧ c.toNat ≤ 'f'.toNat then some (c.toNat - 'a'.toNat + 10)
  else if 'A'.toNat ≤ c.toNat ∧ c.toNat ≤ 'F'.toNat then some (c.toNat - 'A'.toNat + 10)
  else none

/-- Digits in a base, most significant first, on top of `acc`. -/
def digitsIn (base : Nat) : List Char → Nat → Option Nat
  | [], acc => some acc
  | c :: cs, acc =>
    match digitValue c with
    | some d => if d < base then digitsIn base cs (acc * base + d) else none
    | none => none

/-- A number: decimal, or hexadecimal with `0x` (R87). -/
def number (cs : List Char) : Option Nat :=
  match cs with
  | [] => none
  | ['0', 'x'] => none
  | '0' :: 'x' :: hs => digitsIn 16 hs 0
  | ds => digitsIn 10 ds 0

/-- A number that fits the operand's field; a larger one is no operand (R87; log 20). -/
def operand (w : Nat) (cs : List Char) : Option (BitVec w) :=
  match number cs with
  | some n => if n < 2 ^ w then some (BitVec.ofNat w n) else none
  | none => none

/-- An extra key: A, B or C (R87). -/
def keyOperand (cs : List Char) : Option (BitVec 2) :=
  match cs with
  | ['A'] => some 0
  | ['B'] => some 1
  | ['C'] => some 2
  | _ => none

/-- All operands read, or none. -/
def allOperands (w : Nat) : List (List Char) → Option (List (BitVec w))
  | [] => some []
  | cs :: rest =>
    match operand w cs, allOperands w rest with
    | some v, some vs => some (v :: vs)
    | _, _ => none

/-! Operand lists of each mnemonic (R87, R88). -/

/-- `show d0[, d1[, d2[, d3]]]`, omitted operands 0, no operand at all included (R88). -/
def showOperands (ds : List Byte) : Option Instr :=
  match ds with
  | [] => some (.showSegs 0 0 0 0)
  | [d0] => some (.showSegs d0 0 0 0)
  | [d0, d1] => some (.showSegs d0 d1 0 0)
  | [d0, d1, d2] => some (.showSegs d0 d1 d2 0)
  | [d0, d1, d2, d3] => some (.showSegs d0 d1 d2 d3)
  | _ => none

/-- A command without operands. -/
def noOperands (i : Instr) (ops : List (List Char)) : Option Instr :=
  if ops = [] then some i else none

/-- One operand of width w. -/
def oneOperand {w : Nat} (f : BitVec w → Instr) (ops : List (List Char)) : Option Instr :=
  match ops with
  | [a] => (operand w a).map f
  | _ => none

/-- Two operands of widths v and w. -/
def twoOperands {v w : Nat} (f : BitVec v → BitVec w → Instr) (ops : List (List Char)) : Option Instr :=
  match ops with
  | [a, b] =>
    match operand v a, operand w b with
    | some x, some y => some (f x y)
    | _, _ => none
  | _ => none

/-- `setextrakey K, pin` (R87). -/
def keyAndPin (ops : List (List Char)) : Option Instr :=
  match ops with
  | [a, b] =>
    match keyOperand a, operand 8 b with
    | some k, some pin => some (.setextrakey k pin)
    | _, _ => none
  | _ => none

/-- The command of a mnemonic or alias with its operands (R87, R88). `cls` is `clear`, `run` is `poll`, and `clearleds`
without a mask clears all. -/
def assembleCommand (m : List Char) (ops : List (List Char)) : Option Instr :=
  if m = "init".toList then noOperands .init ops
  else if m = "sethandler".toList then oneOperand .sethandler ops
  else if m = "setextrakey".toList then keyAndPin ops
  else if m = "show".toList then (allOperands 8 ops).bind showOperands
  else if m = "shownum".toList then twoOperands .shownum ops
  else if m = "clear".toList ∨ m = "cls".toList then noOperands .clear ops
  else if m = "setleds".toList then twoOperands .setleds ops
  else if m = "clearleds".toList then (if ops = [] then some (.clearleds 0xFF) else oneOperand .clearleds ops)
  else if m = "poll".toList ∨ m = "run".toList then oneOperand .poll ops
  else if m = "tick".toList then noOperands .tick ops
  else none

/-- What one line of a listing holds. -/
inductive AsmLine where
  /-- nothing but blanks and a comment -/
  | blank
  /-- one command -/
  | command (i : Instr)
  /-- not in the syntax -/
  | malformed
deriving DecidableEq, Repr

/-- One line: a `;` starts a comment, one command per line (R87). -/
def assembleLine (line : List Char) : AsmLine :=
  let code := trimBlanks (line.takeWhile (· ≠ ';'))
  if code = [] then .blank
  else
    let m := code.takeWhile (fun c => !isBlank c)
    let rest := trimBlanks (code.dropWhile (fun c => !isBlank c))
    match assembleCommand m (if rest = [] then [] else (splitCommas rest).map trimBlanks) with
    | some i => .command i
    | none => .malformed

/-- The command word of a line, if it holds one: every pseudo-instruction expands to exactly one word (R88). -/
def assembleWord (line : List Char) : Option Word :=
  match assembleLine line with
  | .command i => some (encode i)
  | _ => none

end Sys2Proof.Machine
end

