-- ==== Sys2Proof/Machine/Parametric.lean ====
section
/-! DEFINITION. The block with every parameter of 00_scope.md R9 an argument, the sizes and widths among them. `exec` and
`step`, whose types the host fixes, are this machine at this hardware's sizes and `Config.board` (Laws/Parametric.lean;
log 3, log 18). -/

namespace Sys2Proof.Machine

variable {W CW ND NS NX NB : Nat}

/-- Power-on of a block of any size, `idx` at slot i: the three control fields as the spec gives them, 0 or false elsewhere
(10_state.md R33, 70_reset_and_hazards.md R250; log 1). -/
def resetWith (i : Fin NS) : Sized.State W CW ND NS NX NB where
  digit := Vector.replicate ND 0
  led := 0
  raw := 0
  dbt := Vector.replicate NB 0
  stable := 0
  lastStable := 0
  lastCombo := 0
  dblDeadline := 0
  rptDeadline := 0
  longPress := false
  idx := i
  handler := 0
  extraCfg := Vector.replicate NX false
  extraPin := Vector.replicate NX 0
  initialised := false
  timerEnabled := false
  refused := false
  firstRefusal := none
  trace := []
  emits := []
  inbox := []
  gaps := []
  env := []
  draws := 0

/-- A command on the block with the parameters P. -/
def execWith (P : Sized.Params W CW ND NS NX NB) (c : Command W) (s : Sized.State W CW ND NS NX NB) :
    Host.Outcome (Sized.State W CW ND NS NX NB) Fault Refusal :=
  match c with
  | .poll now => pollCommand P now s
  | .other i =>
    match i with
    | .init => .next (initWith P s)
    | .sethandler h => hostCommand (encode i) (writeHandler h) s
    | .setextrakey key pin => setextrakeyCommand key pin s
    | .showSegs d0 d1 d2 d3 => hostCommand (encode i) (showWith P d0 d1 d2 d3) s
    | .shownum n start => hostCommand (encode i) (shownumWith P n start) s
    | .clear => hostCommand (encode i) (clearWith P) s
    | .setleds bits mask => hostCommand (encode i) (setledsWith P bits mask) s
    | .clearleds mask => hostCommand (encode i) (clearLedBits mask) s
    | .poll now => pollCommand P (now.setWidth W) s
    | .tick => timerTick P s

/-- One step of the block with the parameters P. -/
def stepWith (P : Sized.Params W CW ND NS NX NB) (s : Sized.State W CW ND NS NX NB) :
    Host.Outcome (Sized.State W CW ND NS NX NB) Fault Refusal :=
  match s.inbox with
  | [] => .next s
  | a :: rest =>
    match decodeCommand W a.port a.word with
    | .ok c => execWith P c (accept a rest s)
    | .error r => .next (refuse r a.word (accept a rest s))

end Sys2Proof.Machine
end

