-- ==== Sys2Proof/Machine/ShiftRegister.lean ====
section
/-! DEFINITION. What the pin trace says of the outside: pin levels and directions (10_state.md R32), the reference shift register
(60_exceptions.md R236) and what the display shows (40_refresh.md R111). No rule of the block reads any of it (log 14).
A pin counts as driven at the level last written to it, whatever its direction: the model's choice for a refresh pin that is
configured as an input (log 23). -/

namespace Sys2Proof.Machine

variable {W CW ND NS NX NB : Nat}

/-- The level last written to pin p, from the level before (R32). -/
def levelAfter (p : PinId) (before : Option Bool) : PinEvent → Option Bool
  | .write q l => if q = p then some l else before
  | _ => before

/-- The level of pin p after a trace: unknown until it is first written (R32, 70_reset_and_hazards.md R251). -/
def pinLevel (p : PinId) (es : List PinEvent) : Option Bool := es.foldl (levelAfter p) none

/-- A pin's configured direction. -/
inductive PinDir where
  | output
  | input
deriving DecidableEq, Repr

/-- The direction last configured for pin p, from the direction before (20_memory.md R55). -/
def dirAfter (p : PinId) (before : Option PinDir) : PinEvent → Option PinDir
  | .cfgOut q => if q = p then some .output else before
  | .cfgIn q => if q = p then some .input else before
  | _ => before

/-- The direction of pin p after a trace: unknown until it is first configured (70_reset_and_hazards.md R251). -/
def pinDir (p : PinId) (es : List PinEvent) : Option PinDir := es.foldl (dirAfter p) none

/-- The external shift register: the shift stage, the latched outputs, and the levels of its two input pins (R236).
It is outside the block, so it is a function of the trace and not a field of State (10_state.md R35). -/
structure ShiftReg where
  /-- Sh, the shift stage -/
  sh : Byte
  /-- Q, the latched outputs -/
  q : Byte
  /-- level(PIN_CLK) -/
  clk : Bool
  /-- level(PIN_DATA) -/
  data : Bool
deriving DecidableEq, Repr

/-- A transition of PIN_CLK from CLK_IDLE to CLK_ACT: `Q <- Sh`, then `Sh <- (Sh << 1) | level(PIN_DATA)` (R236). -/
def shiftEdge (r : ShiftReg) : ShiftReg :=
  { r with q := r.sh, sh := (r.sh <<< 1) ||| (BitVec.ofBool r.data).setWidth 8 }

/-- One pin event at the register (R236). A write counts even while the pin is configured as an input (DESIGN CHOICE,
log 23). -/
def shiftRegEvent (P : Sized.Params W CW ND NS NX NB) (r : ShiftReg) : PinEvent → ShiftReg
  | .write p l =>
    if p = P.pinClk then
      { (if r.clk = P.clkIdle ∧ l = clkActive P then shiftEdge r else r) with clk := l }
    else if p = P.pinData then { r with data := l }
    else r
  | _ => r

/-- The register after a trace, from any contents before it. -/
def shiftRegRun (P : Sized.Params W CW ND NS NX NB) (r : ShiftReg) (es : List PinEvent) :
    ShiftReg := es.foldl (shiftRegEvent P) r

/-- Is digit-enable j ON after a trace? (00_scope.md R15) The level last written counts even while the pin is configured as
an input (DESIGN CHOICE, log 23). -/
def digitOn (P : Sized.Params W CW ND NS NX NB) (es : List PinEvent) (j : Fin ND) : Bool :=
  pinLevel P.pinDigit[j] es == some P.digitOnLevel

/-- The pattern position j shows: the latched outputs while its digit-enable is ON, else nothing (R111). -/
def shownAt (P : Sized.Params W CW ND NS NX NB) (r : ShiftReg) (es : List PinEvent) (j : Fin ND) : Option Byte :=
  if digitOn P es j then some (shiftRegRun P r es).q else none

end Sys2Proof.Machine
end

