-- ==== Sys2Proof/Safety.lean ====
section
/-! DEFINITION. What claims are stated in: a run's observation, an accepted run, reachability, the state invariants, and
the premises HOST owes. -/

namespace Sys2Proof.Machine

/-- What the block has put out so far: the pin trace, the deliveries, the `refused` mark (70_reset_and_hazards.md R254; the
fourth part of R254's observation, the final state record, is the state itself). -/
structure Outputs where
  trace : List PinEvent
  emits : List Emit
  refused : Bool
deriving DecidableEq, Repr

/-- The outputs of the run that ends in `s`. -/
def State.outputs (s : State) : Outputs := ⟨s.trace, s.emits, s.refused⟩

/-- No command of the run was refused: the premise of a claim about a program (60_exceptions.md R221). -/
def State.accepted (s : State) : Prop := s.refused = false

/-- Commands performed one after the other, stopping at the first that does not answer a next state. -/
def runAll : List Instr → State → Host.Outcome State Fault Refusal
  | [], s => .next s
  | i :: is, s =>
    match exec i s with
    | .next t => runAll is t
    | .fault f => .fault f
    | .refused r => .refused r

/-- Is the command a POLL? A lane's lockout is counted in these (42_classifier.md R165). -/
def isPoll : Instr → Bool
  | .poll _ => true
  | .init | .sethandler _ | .setextrakey _ _ | .showSegs _ _ _ _ | .shownum _ _ | .clear | .setleds _ _ | .clearleds _
  | .tick => false

/-- Commands, and TICKs, that write neither the classifier's fields nor the handler slot (20_memory.md R66). -/
def betweenPolls : Instr → Bool
  | .init | .sethandler _ | .poll _ => false
  | .setextrakey _ _ | .showSegs _ _ _ _ | .shownum _ _ | .clear | .setleds _ _ | .clearleds _ | .tick => true

/-- One POLL at every ms after `t0`, each after the commands and TICKs of its block. -/
def pollEveryMs (t0 : Time) : List (List Instr) → List Instr
  | [] => []
  | b :: bs => b ++ .poll (t0 + 1) :: pollEveryMs (t0 + 1) bs

/-- What a HOST command leaves when it is refused before INIT: the mark, and the record of the first refusal; nothing else
(60_exceptions.md R221, R222, R223). -/
def State.refusedBeforeInit (s : State) (i : Instr) : State :=
  { s with refused := true, firstRefusal := s.firstRefusal.or (some ⟨.notInitialised, encode i⟩) }

/-- From s to t only TICKs ran: `raw`, `idx`, the trace, ENV's draws and the boundary list may differ, raw bits NUM_SLOTS and up
may not, and the trace only grows (40_refresh.md R108, R112; 20_memory.md R66). -/
structure TickFrame {W CW ND NS NX NB : Nat} (s t : Sized.State W CW ND NS NX NB) : Prop where
  rest : t = { s with raw := t.raw, idx := t.idx, trace := t.trace, env := t.env, draws := t.draws, gaps := t.gaps }
  high : ∀ j, NS ≤ j → t.raw.getLsbD j = s.raw.getLsbD j
  grows : s.trace <+: t.trace

/-- Two states that agree on everything with a power-on value and on all inputs and outputs; the fields that hold no value
at power-on may differ (10_state.md R33). -/
structure SameControl (s u : State) : Prop where
  initialised : s.initialised = u.initialised
  timerEnabled : s.timerEnabled = u.timerEnabled
  firstRefusal : s.firstRefusal = u.firstRefusal
  outputs : s.outputs = u.outputs
  inbox : s.inbox = u.inbox
  gaps : s.gaps = u.gaps
  env : s.env = u.env
  draws : s.draws = u.draws

/-- A POLL that starts in s with the snapshot r has `newKeyPress`: some unlocked lane sees its key down and not yet stable
(42_classifier.md R164). -/
abbrev AdoptsPress (s : State) (r : Byte) : Prop :=
  ∃ j : Fin 6, s.dbt[j] = 0 ∧ r.getLsbD j = true ∧ s.stable.getLsbD j = false

/-- What the handler h is delivered for an event of kind k on the bitmap `stable`: one word, or nothing with no handler
(42_classifier.md R178). -/
def delivered (h : HandlerId) (k : EventKind) (stable : Byte) : List Emit :=
  if h = 0 then [] else [⟨h, Config.board.eventCode.of k ||| stable.setWidth 16⟩]

/-- The block's fields hold legal values (10_state.md R34 items 2 and 3; R26, R27). -/
structure FieldsLegal (s : State) : Prop where
  stable_lanes : ∀ j, 6 ≤ j → s.stable.getLsbD j = false
  lastCombo_lanes : ∀ j, 6 ≤ j → s.lastCombo.getLsbD j = false
  dbt_bound : ∀ j : Fin 6, s.dbt[j].toNat ≤ Config.board.debounce.toNat

/-- Between two POLLs the classifier is settled (10_state.md R34 items 4 and 6, R28). -/
structure ClassifierSettled (s : State) : Prop where
  last_is_stable : s.lastStable = s.stable
  idle_zero : s.stable = 0 → s.rptDeadline = 0 ∧ s.longPress = false

/-- The control fields agree (10_state.md R33, 60_exceptions.md R223; 70_reset_and_hazards.md R251). -/
structure ControlConsistent (s : State) : Prop where
  timer_iff_init : s.timerEnabled = s.initialised
  mark_iff_record : s.refused = s.firstRefusal.isSome

/-- Every delivery names a registered handler, and its word is one event kind with a nonzero bitmap of the six lanes
(42_classifier.md R163, R176, R178). -/
def EmitsLegal (s : State) : Prop :=
  ∀ e ∈ s.emits, e.handler ≠ 0 ∧
    ∃ (k : EventKind) (combo : Byte), combo ≠ 0 ∧ (∀ j, 6 ≤ j → combo.getLsbD j = false) ∧
      e.word = eventWord Config.board k combo

/-- The state invariant: 10_state.md R34, with the control fields and the deliveries. -/
structure StateInv (s : State) : Prop where
  fields : FieldsLegal s
  classifier : ClassifierSettled s
  control : ControlConsistent s
  emits : EmitsLegal s

/-- A W-bit clock and a deadline lie within the range HOST owes: at most 2^(W-1) - 1 ms apart
(70_reset_and_hazards.md R267). -/
def withinClockRange (W now deadline : Nat) : Prop :=
  now - deadline < 2 ^ (W - 1) ∧ deadline - now < 2 ^ (W - 1)

end Sys2Proof.Machine
end

