-- ==== Sys2Proof/Certificates/Slice0/Obligations.lean ====
section
/-! DEFINITION. The statements for the provers, in the order of OBLIGATIONS.json. -/

open Sys2Proof Sys2Proof.Machine

/-! Encoding and syntax. -/

/-- 30_encoding.md R89: every line of the example table assembles to its word, its word decodes on the command's port to the
command it stands for, and the four refused words are refused with their reasons. -/
def Obligations.DocumentedExamplesDecode : Prop :=
  (∀ e ∈ ([
      ("init", 0x0100000000000000, .init),
      ("sethandler 1", 0x0200000000000001, .sethandler 1),
      ("setextrakey B, 9", 0x0300000000000109, .setextrakey 1 9),
      ("show 0x28, 0xB3, 0xBA, 0x78", 0x1000000078BAB328, .showSegs 0x28 0xB3 0xBA 0x78),
      ("shownum 1234, 0", 0x11000000000004D2, .shownum 1234 0),
      ("shownum 42, 2", 0x110000000002002A, .shownum 42 2),
      ("shownum 5, 5", 0x1100000000050005, .shownum 5 5),
      ("cls", 0x1200000000000000, .clear),
      ("setleds 0x0F, 0x0F", 0x2000000000000F0F, .setleds 0x0F 0x0F),
      ("setleds 0x10, 0x10", 0x2000000000001010, .setleds 0x10 0x10),
      ("clearleds", 0x21000000000000FF, .clearleds 0xFF),
      ("poll 1000", 0x30000000000003E8, .poll 1000),
      ("tick", 0x4000000000000000, .tick)] : List (String × Word × Instr)),
    assembleWord e.1.toList = some e.2.1 ∧ decode e.2.2.port e.2.1 = .ok e.2.2) ∧
  decode .host 0x0000000000000000 = .error .illegalOpcode ∧
  decode .host 0x0100000000000001 = .error .reservedBits ∧
  decode .host 0x0300000000000300 = .error .badKey ∧
  decode .host 0x4000000000000000 = .error .tickFromHost

/-- Decoding the word of a well-formed command, on the port that delivers it, gives the command back, with every operand. -/
def Obligations.DecodeOfEncodeIsTheCommand : Prop :=
  ∀ i : Instr, i.wellFormed = true → decode i.port (encode i) = .ok i

/-- Each word has one meaning: what decodes is well formed, came on its own port, and encodes back to the same word. -/
def Obligations.EncodeOfDecodeIsTheWord : Prop :=
  ∀ (p : Port) (c : Word) (i : Instr), decode p c = .ok i → i.wellFormed = true ∧ i.port = p ∧ encode i = c

/-- 30_encoding.md R85: every illegal encoding and its reason; and the words that match a row of the opcode table decode, but
for SETEXTRAKEY with key 3. -/
def Obligations.IllegalEncodingsAreRefused : Prop :=
  (∀ c : Word, (∀ row ∈ opcodeTable, field row.bits 56 8 ≠ field c 56 8) → decode .host c = .error .illegalOpcode) ∧
  (∀ c : Word, ∀ row ∈ opcodeTable, field row.bits 56 8 = field c 56 8 → row.matches c = false →
    decode .host c = .error .reservedBits) ∧
  (∀ c : Word, opcodeTable[2].matches c = true → field c 8 2 = 3 → decode .host c = .error .badKey) ∧
  decode .host tickWord = .error .tickFromHost ∧
  (∀ c : Word, c ≠ tickWord → decode .timer c = .error .notTimerCommand) ∧
  (∀ c : Word, ∀ row ∈ opcodeTable, row.matches c = true → (row.mnemonic = "setextrakey" → field c 8 2 ≠ 3) →
    ∃ i : Instr, decode row.port c = .ok i ∧ i.mnemonic = row.mnemonic)

/-- 30_encoding.md R71, R81 with 00_scope.md R9, D24: for every clock width W up to 56, the POLL word of any W-bit `now` decodes to that
POLL, and a POLL word with a bit above its W-bit operand is refused. -/
def Obligations.PollWordDecodesAtAnyWidth : Prop :=
  ∀ W, W ≤ 56 →
    (∀ now : BitVec W, decodeCommand W .host (pollWord now) = .ok (.poll now)) ∧
    (∀ (c : Word) (j : Nat), field c 56 8 = 0x30 → W ≤ j → j < 56 → c.getLsbD j = true →
      decodeCommand W .host c = .error .reservedBits)

/-- 20_memory.md R52: a word carried as bytes, byte 0 its bits [7:0], decodes as the word does and leaves the bytes after it;
byte lists shorter than a word are rejected as incomplete (the model's choice, log 15). -/
def Obligations.BytesAreLittleEndian : Prop :=
  (∀ (p : Port) (c : Word) (rest : List Byte), decodeBytes p (bytesOfWord c ++ rest) =
    match decode p c with
    | .ok i => .ok (i, rest)
    | .error r => .error (.refused r)) ∧
  (∀ (c : Word) (k : Fin 8) (j : Nat), j < 8 → ∃ b, (bytesOfWord c)[k.val]? = some b ∧ b.getLsbD j = c.getLsbD (8 * k.val + j)) ∧
  (∀ (p : Port) (bs : List Byte), bs.length < 8 → decodeBytes p bs = .error .incomplete)

/-- 30_encoding.md R88: the aliases and the operand defaults, for every operand text; `blank` is no alias; and `show` without
operands leaves what CLEAR leaves. -/
def Obligations.AliasesExpandToOneCommand : Prop :=
  (∀ ops, assembleCommand "cls".toList ops = assembleCommand "clear".toList ops) ∧
  (∀ ops, assembleCommand "run".toList ops = assembleCommand "poll".toList ops) ∧
  (∀ a b c d0 d1 d2, operand 8 a = some d0 → operand 8 b = some d1 → operand 8 c = some d2 →
    assembleCommand "show".toList [a] = some (.showSegs d0 0 0 0) ∧
    assembleCommand "show".toList [a, b] = some (.showSegs d0 d1 0 0) ∧
    assembleCommand "show".toList [a, b, c] = some (.showSegs d0 d1 d2 0)) ∧
  assembleCommand "show".toList [] = some (.showSegs 0 0 0 0) ∧
  assembleCommand "clearleds".toList [] = some (.clearleds 0xFF) ∧
  (∀ ops, assembleCommand "blank".toList ops = none) ∧
  (∀ line i, assembleLine line = .command i → assembleWord line = some (encode i)) ∧
  (∀ s : State, s.initialised = true → exec (.showSegs 0 0 0 0) s = exec .clear s)

/-! The step and refusals. -/

/-- When the next arrival's word decodes on its port, the step is `exec` of that command on the state with the arrival taken off
the inbox and its boundary list in place; and a well-formed command's own word on its own port is such an arrival. That one step
is one arrival, taken from an inbox with its boundary list, is the model's choice (log 5, log 9). -/
def Obligations.StepRunsTheDecodedCommand : Prop :=
  (∀ (s : State) (a : Arrival) (rest : List Arrival) (i : Instr), s.inbox = a :: rest → decode a.port a.word = .ok i →
    step s = exec i { s with inbox := rest, gaps := a.gaps }) ∧
  (∀ (s : State) (i : Instr) (g : List Nat) (rest : List Arrival), i.wellFormed = true →
    s.inbox = ⟨i.port, encode i, g⟩ :: rest → step s = exec i { s with inbox := rest, gaps := g })

/-- With nothing arriving the block is idle and unchanged. The model's choice (log 6): 70_reset_and_hazards.md R252 says the block
"is idle" then, and R254 that it never halts. -/
def Obligations.IdleBlockIsUnchanged : Prop :=
  ∀ s : State, s.inbox = [] → step s = .next s

/-- 60_exceptions.md R221: a refused word (any the decoder refuses, on either port, in any state), and a HOST command before
INIT, change `refused` (and the record of the first refusal) and nothing else; no step clears the mark; and a refusal leaves
TIMER's enable alone. -/
def Obligations.RefusalsChangeOnlyTheMark : Prop :=
  (∀ (s : State) (a : Arrival) (rest : List Arrival) (r : Reason), s.inbox = a :: rest → decode a.port a.word = .error r →
    step s = .next { s with
      inbox := rest
      gaps := a.gaps
      refused := true
      firstRefusal := s.firstRefusal.or (some ⟨r, a.word⟩) }) ∧
  (∀ (s : State) (i : Instr), i.wellFormed = true → i.port = .host → i ≠ .init → s.initialised = false →
    exec i s = .next (s.refusedBeforeInit i)) ∧
  (∀ s t : State, step s = .next t → t.accepted → s.accepted)

/-- 60_exceptions.md R222: before INIT every HOST command but INIT is refused NotInitialised, INIT is not, and TIMER has no step. -/
def Obligations.OnlyInitRunsBeforeInit : Prop :=
  ∀ s : State, s.initialised = false → s.timerEnabled = s.initialised → s.firstRefusal = none →
    (∀ i : Instr, i.wellFormed = true → i.port = .host → i ≠ .init →
      ∃ t, exec i s = .next t ∧ t.refused = true ∧ t.firstRefusal = some ⟨.notInitialised, encode i⟩ ∧ t.initialised = false) ∧
    (∃ t, exec .init s = .next t ∧ t.initialised = true ∧ t.firstRefusal = none) ∧
    (∀ t, exec .tick s ≠ .next t)

/-- 60_exceptions.md R224: which reason is recorded when several apply. Decode comes before NotInitialised; on HOST the order is
opcode, reserved bits, then key or port; on TIMER the whole word is the only check. -/
def Obligations.RefusalReasonPriority : Prop :=
  ∀ (s : State) (c : Word) (g : List Nat) (rest : List Arrival), s.firstRefusal = none →
    (s.inbox = ⟨.host, c, g⟩ :: rest →
      (∀ row ∈ opcodeTable, field row.bits 56 8 = field c 56 8 → row.matches c = false →
        ∃ t, step s = .next t ∧ t.firstRefusal = some ⟨.reservedBits, c⟩) ∧
      (field c 56 8 = 0x03 → field c 10 46 = 0 → field c 8 2 = 3 →
        ∃ t, step s = .next t ∧ t.firstRefusal = some ⟨.badKey, c⟩) ∧
      (c = tickWord → ∃ t, step s = .next t ∧ t.firstRefusal = some ⟨.tickFromHost, c⟩) ∧
      ((∀ row ∈ opcodeTable, field row.bits 56 8 ≠ field c 56 8) →
        ∃ t, step s = .next t ∧ t.firstRefusal = some ⟨.illegalOpcode, c⟩) ∧
      (∀ i, decode .host c = .ok i → i ≠ .init → s.initialised = false →
        ∃ t, step s = .next t ∧ t.firstRefusal = some ⟨.notInitialised, c⟩)) ∧
    (s.inbox = ⟨.timer, c, g⟩ :: rest → c ≠ tickWord →
      ∃ t, step s = .next t ∧ t.firstRefusal = some ⟨.notTimerCommand, c⟩)

/-- 60_exceptions.md R223: the first refusal's reason and word are kept by every later step. -/
def Obligations.FirstRefusalIsKept : Prop :=
  ∀ (s t : State) (r : RefusalRecord), step s = .next t → s.firstRefusal = some r → t.firstRefusal = some r

/-- 60_exceptions.md R220: no operation traps, faults or reports an error. Whatever arrives, the step has a next state; the one
case left out is a TICK word while TIMER is disabled, when TIMER has no step (40_refresh.md R101). -/
def Obligations.EveryArrivalHasANextState : Prop :=
  ∀ s : State,
    (∀ (a : Arrival) (rest : List Arrival), s.inbox = a :: rest → a.port = .timer → a.word = tickWord →
      s.timerEnabled = true) →
    ∃ t, step s = .next t

/-! Reset and INIT. -/

/-- The values a field happens to hold at power-on cannot be observed (10_state.md R33): two uninitialised states that differ only
in fields with no power-on value stay alike under every step, and are equal once INIT has run. So no claim rests on the values
the model's log 1 chose. -/
def Obligations.PowerOnValuesAreUnobservable : Prop :=
  ∀ s u : State, SameControl s u → s.initialised = false → s.timerEnabled = false →
    match step s, step u with
    | .next t, .next v => SameControl t v ∧ (t.initialised = true → t = v)
    | .fault a, .fault b => a = b
    | _, _ => False

/-- 43_control.md R201, R202, R204: INIT, in every state: the 13 pin events in order, every field of the INIT column, TIMER enabled,
`idx` 0 for the first TICK; `refused`, its record, the deliveries and the model's input fields as they were. -/
def Obligations.InitWritesTheInitColumn : Prop :=
  ∀ s : State, exec .init s = .next {
    digit := #v[0, 0, 0, 0], led := 0, raw := 0, dbt := #v[0, 0, 0, 0, 0, 0], stable := 0, lastStable := 0, lastCombo := 0,
    dblDeadline := 0, rptDeadline := 0, longPress := false, idx := 0, handler := 0, extraCfg := #v[false, false, false],
    extraPin := #v[0, 0, 0], initialised := true, timerEnabled := true, refused := s.refused, firstRefusal := s.firstRefusal,
    trace := s.trace ++ [
      .cfgOut Config.board.pinDigit[0], .cfgOut Config.board.pinDigit[1], .cfgOut Config.board.pinDigit[2],
      .cfgOut Config.board.pinDigit[3], .cfgOut Config.board.pinClk, .cfgOut Config.board.pinData,
      .cfgIn Config.board.pinSwRead,
      .write Config.board.pinDigit[0] (!Config.board.digitOnLevel), .write Config.board.pinDigit[1] (!Config.board.digitOnLevel),
      .write Config.board.pinDigit[2] (!Config.board.digitOnLevel), .write Config.board.pinDigit[3] (!Config.board.digitOnLevel),
      .write Config.board.pinClk Config.board.clkIdle, .write Config.board.pinData false],
    emits := s.emits, inbox := s.inbox, gaps := s.gaps, env := s.env, draws := s.draws }

/-- 43_control.md R202: after INIT's pin sequence all four digit-enables are OFF, the clock is at its idle level, the data pin is low,
the six refresh pins are outputs and the read pin is an input, for every board whose six output pins are six different pins (one
that is the read pin too ends as an input). A level is the last one written (10_state.md R32; for a pin that is an input, log 23). -/
def Obligations.InitLeavesTheDisplayDark : Prop :=
  ∀ (P : Params) (es : List PinEvent), P.OutputPinsDistinct →
    (∀ j : Fin 4, pinLevel P.pinDigit[j] (es ++ initPins P) = some (!P.digitOnLevel) ∧
      digitOn P (es ++ initPins P) j = false ∧
      pinDir P.pinDigit[j] (es ++ initPins P) = (if P.pinSwRead = P.pinDigit[j] then some .input else some .output)) ∧
    pinLevel P.pinClk (es ++ initPins P) = some P.clkIdle ∧
    pinDir P.pinClk (es ++ initPins P) = (if P.pinSwRead = P.pinClk then some .input else some .output) ∧
    pinLevel P.pinData (es ++ initPins P) = some false ∧
    pinDir P.pinData (es ++ initPins P) = (if P.pinSwRead = P.pinData then some .input else some .output) ∧
    pinDir P.pinSwRead (es ++ initPins P) = some .input

/-- 00_scope.md R10: the board's parameters meet the constraints. -/
def Obligations.BoardMeetsTheConstraints : Prop :=
  Config.board.wf = true

/-! Configuration commands. -/

/-- 43_control.md R206: SETHANDLER writes the slot and nothing else, before INIT it is refused, and its word is the opcode 0x02
with the handler in the low 16 bits. -/
def Obligations.SethandlerWritesTheSlot : Prop :=
  ∀ (h : HandlerId) (s : State),
    (s.initialised = true → exec (.sethandler h) s = .next { s with handler := h }) ∧
    (s.initialised = false → exec (.sethandler h) s = .next (s.refusedBeforeInit (.sethandler h))) ∧
    encode (.sethandler h) = 0x0200000000000000 ||| h.setWidth 64

/-- 43_control.md R211: SETEXTRAKEY configures the pin as an input, stores it and marks the key, and nothing else; `raw` keeps its
value. Before INIT it is refused NotInitialised, and a word with key 3 is refused BadKey at decode. -/
def Obligations.SetextrakeyConfiguresTheKey : Prop :=
  (∀ (k : Fin 3) (pin : PinId) (s : State),
    (s.initialised = true → exec (.setextrakey (BitVec.ofNat 2 k.val) pin) s = .next { s with
      trace := s.trace ++ [.cfgIn pin]
      extraPin := s.extraPin.set k pin
      extraCfg := s.extraCfg.set k true }) ∧
    (s.initialised = false → exec (.setextrakey (BitVec.ofNat 2 k.val) pin) s =
      .next (s.refusedBeforeInit (.setextrakey (BitVec.ofNat 2 k.val) pin)))) ∧
  (∀ c : Word, field c 56 8 = 0x03 → field c 10 46 = 0 → field c 8 2 = 3 → decode .host c = .error .badKey)

/-- The model's choice for a command no word decodes to (log 16): `exec` of SETEXTRAKEY with key 3 refuses BadKey, in every state, as
decoding the word would have. -/
def Obligations.SetextrakeyOfKeyThreeIsRefused : Prop :=
  ∀ (pin : PinId) (s : State), exec (.setextrakey 3 pin) s = .next { s with
    refused := true
    firstRefusal := s.firstRefusal.or (some ⟨.badKey, encode (.setextrakey 3 pin)⟩) }

/-! Display commands. -/

/-- 41_display.md R134: SHOW's four writes, in order, with TICKs at the three boundaries between them, and its frame; before INIT
it is refused. -/
def Obligations.ShowWritesTheFourDigits : Prop :=
  ∀ (d0 d1 d2 d3 : Byte) (s : State),
    (s.initialised = false → exec (.showSegs d0 d1 d2 d3) s = .next (s.refusedBeforeInit (.showSegs d0 d1 d2 d3))) ∧
    (s.initialised = true →
      ∃ t, exec (.showSegs d0 d1 d2 d3) s = .next t ∧ TickFrame { s with digit := #v[d0, d1, d2, d3] } t) ∧
    (s.initialised = true → s.gaps = [] →
      exec (.showSegs d0 d1 d2 d3) s = .next { s with digit := #v[d0, d1, d2, d3] }) ∧
    (∀ a b c, s.initialised = true → s.gaps = [a, b, c] →
      let s1 := ticks Config.board a { s with digit := s.digit.set 0 d0, gaps := [b, c] }
      let s2 := ticks Config.board b { s1 with digit := s1.digit.set 1 d1, gaps := [c] }
      let s3 := ticks Config.board c { s2 with digit := s2.digit.set 2 d2, gaps := [] }
      exec (.showSegs d0 d1 d2 d3) s = .next { s3 with digit := s3.digit.set 3 d3 })

/-- 70_reset_and_hazards.md R262: one TICK inside SHOW, at the boundary after the first b + 1 writes, shifts the new pattern of a
position already written and the old pattern of one not yet written; the command still completes. -/
def Obligations.TickInsideShowSeesATornFrame : Prop :=
  ∀ (d0 d1 d2 d3 : Byte) (s : State) (b : Fin 3), s.initialised = true → s.timerEnabled = true →
    s.gaps = List.replicate b.val 0 ++ [1] →
    ∃ t, exec (.showSegs d0 d1 d2 d3) s = .next t ∧ t.digit = #v[d0, d1, d2, d3] ∧ t.idx = s.idx + 1 ∧
      t.trace = s.trace ++ (.read Config.board.pinSwRead (envAnswer Config.board.pinSwRead s) ::
        (digitsOff Config.board ++
          (shiftOut Config.board
            (if h : s.idx.val < 4 then
              (if s.idx.val ≤ b.val then (#v[d0, d1, d2, d3] : Vector Byte 4)[s.idx.val] else s.digit[s.idx.val])
            else s.led) ++ enableSlot Config.board s.idx)))

/-- 41_display.md R139-R142: SHOWNUM's digits by position, its truncation, its sentinel and its frame. -/
def Obligations.ShownumShowsPositionAlignedDigits : Prop :=
  ∀ (n : BitVec 16) (start : BitVec 8) (s : State), s.initialised = true →
    ∃ t, exec (.shownum n start) s = .next t ∧
      (∀ p : Fin 4, t.digit[p] =
        if 3 < start.toNat then Config.board.dpPattern
        else if start.toNat ≤ p.val then
          Config.board.digitFont[n.toNat / 10 ^ (3 - p.val) % 10]'(Nat.mod_lt _ (by decide))
        else s.digit[p]) ∧
      TickFrame { s with digit := t.digit } t ∧
      (s.gaps = [] → t = { s with digit := t.digit })

/-- 41_display.md R138, 70_reset_and_hazards.md R262: SHOWNUM writes one position at a time, ascending, from `start` in range and from
0 for the sentinel: one TICK at the boundary after the first b + 1 writes shifts the new pattern exactly at the positions written. -/
def Obligations.TickInsideShownumSeesATornFrame : Prop :=
  ∀ (n : BitVec 16) (start : BitVec 8) (s : State) (b : Nat), s.initialised = true → s.timerEnabled = true →
    (start.toNat + b < 3 ∨ (3 < start.toNat ∧ b < 3)) → s.gaps = List.replicate b 0 ++ [1] →
    ∃ t, exec (.shownum n start) s = .next t ∧ t.idx = s.idx + 1 ∧
      t.trace = s.trace ++ (.read Config.board.pinSwRead (envAnswer Config.board.pinSwRead s) ::
        (digitsOff Config.board ++
          (shiftOut Config.board
            (if h : s.idx.val < 4 then
              (if 3 < start.toNat then (if s.idx.val ≤ b then Config.board.dpPattern else s.digit[s.idx.val])
              else if start.toNat ≤ s.idx.val ∧ s.idx.val ≤ start.toNat + b then
                Config.board.digitFont[n.toNat / 10 ^ (3 - s.idx.val) % 10]'(Nat.mod_lt _ (by decide))
              else s.digit[s.idx.val])
            else s.led) ++ enableSlot Config.board s.idx)))

/-- 41_display.md R146, R147: CLEAR blanks the four digits, one atomic write each, and changes nothing else; before INIT it is
refused; `clear` and `cls` are its word. -/
def Obligations.ClearBlanksOnlyTheDigits : Prop :=
  assembleWord "clear".toList = some 0x1200000000000000 ∧ assembleWord "cls".toList = some 0x1200000000000000 ∧
  ∀ s : State,
    (s.initialised = false → exec .clear s = .next (s.refusedBeforeInit .clear)) ∧
    (s.initialised = true → ∃ t, exec .clear s = .next t ∧ TickFrame { s with digit := #v[0, 0, 0, 0] } t) ∧
    (s.initialised = true → s.gaps = [] → exec .clear s = .next { s with digit := #v[0, 0, 0, 0] }) ∧
    (∀ a b c, s.initialised = true → s.gaps = [a, b, c] →
      let s1 := ticks Config.board a { s with digit := s.digit.set 0 0, gaps := [b, c] }
      let s2 := ticks Config.board b { s1 with digit := s1.digit.set 1 0, gaps := [c] }
      let s3 := ticks Config.board c { s2 with digit := s2.digit.set 2 0, gaps := [] }
      exec .clear s = .next { s3 with digit := s3.digit.set 3 0 })

/-- 41_display.md R150: SETLEDS clears the mask bits, then sets the bits, two atomic writes with one boundary between them; a TICK at
slot 4 there shifts the intermediate value; before INIT it is refused. -/
def Obligations.SetledsClearsThenSets : Prop :=
  ∀ (bits mask : Byte) (s : State),
    (s.initialised = false → exec (.setleds bits mask) s = .next (s.refusedBeforeInit (.setleds bits mask))) ∧
    (s.initialised = true →
      ∃ t, exec (.setleds bits mask) s = .next t ∧ TickFrame { s with led := (s.led &&& ~~~mask) ||| bits } t) ∧
    (s.initialised = true → s.gaps = [] →
      exec (.setleds bits mask) s = .next { s with led := (s.led &&& ~~~mask) ||| bits }) ∧
    (∀ n rest, s.initialised = true → s.gaps = n :: rest →
      let s1 := ticks Config.board n { s with led := s.led &&& ~~~mask, gaps := rest }
      exec (.setleds bits mask) s = .next { s1 with led := s1.led ||| bits }) ∧
    (s.initialised = true → s.idx = 4 → s.timerEnabled = true → s.gaps = [1] →
      ∃ t, exec (.setleds bits mask) s = .next t ∧ t.led = (s.led &&& ~~~mask) ||| bits ∧
        t.trace = s.trace ++ (.read Config.board.pinSwRead (envAnswer Config.board.pinSwRead s) ::
          (digitsOff Config.board ++ shiftOut Config.board (s.led &&& ~~~mask))))

/-- 41_display.md R154: CLEARLEDS clears the mask bits in one atomic write and changes nothing else, so no TICK falls inside
it; before INIT it is refused. -/
def Obligations.ClearledsClearsTheMask : Prop :=
  ∀ (mask : Byte) (s : State),
    (s.initialised = true → exec (.clearleds mask) s = .next { s with led := s.led &&& ~~~mask }) ∧
    (s.initialised = false → exec (.clearleds mask) s = .next (s.refusedBeforeInit (.clearleds mask)))

/-- 20_memory.md R62: a second identical command, with no TICK in between, leaves the state the first left; SETEXTRAKEY appends its
pin event again. -/
def Obligations.DisplayAndConfigurationAreIdempotent : Prop :=
  ∀ (i : Instr) (s t : State), s.initialised = true → s.gaps = [] → exec i s = .next t →
    match i with
    | .sethandler _ => exec i t = .next t
    | .showSegs _ _ _ _ => exec i t = .next t
    | .shownum _ _ => exec i t = .next t
    | .clear => exec i t = .next t
    | .setleds _ _ => exec i t = .next t
    | .clearleds _ => exec i t = .next t
    | .setextrakey key pin => key ≠ 3 → exec i t = .next { t with trace := t.trace ++ [.cfgIn pin] }
    | .init => True
    | .poll _ => True
    | .tick => True

/-! TICK. -/

/-- 40_refresh.md R102-R108: TICK in full: the sampled bit, the events in order, the index, the event counts; nothing else; and
no step at all while TIMER is disabled. -/
def Obligations.TickSamplesShiftsAndAdvances : Prop :=
  ∀ s : State, (s.timerEnabled = false → ∀ t, exec .tick s ≠ .next t) ∧ (s.timerEnabled = true →
    let l := envAnswer Config.board.pinSwRead s
    let b := if h : s.idx.val < 4 then s.digit[s.idx.val] else s.led
    ∃ t, exec .tick s = .next t ∧
      (∀ j, t.raw.getLsbD j = if j = s.idx.val then l == Config.board.swPressedLevel else s.raw.getLsbD j) ∧
      t.idx.val = (s.idx.val + 1) % 5 ∧
      t.trace = s.trace ++ (
        [.read Config.board.pinSwRead l]
        ++ ([0, 1, 2, 3] : List (Fin 4)).map (fun j => .write Config.board.pinDigit[j] (!Config.board.digitOnLevel))
        ++ ([7, 6, 5, 4, 3, 2, 1, 0] : List Nat).flatMap (fun k =>
          [.write Config.board.pinData (b.getLsbD k), .write Config.board.pinClk (!Config.board.clkIdle),
            .write Config.board.pinClk Config.board.clkIdle])
        ++ [.write Config.board.pinClk (!Config.board.clkIdle), .write Config.board.pinClk Config.board.clkIdle]
        ++ (if h : s.idx.val < 4 then [.write Config.board.pinDigit[s.idx.val] Config.board.digitOnLevel] else [])) ∧
      t.trace.length = s.trace.length + (if s.idx.val < 4 then 32 else 31) ∧
      t = { s with raw := t.raw, idx := t.idx, trace := t.trace, env := s.env.tail, draws := s.draws + 1 })

/-- 40_refresh.md R101: while TIMER is disabled TICK has no step: the model stops with its one fault (log 7). -/
def Obligations.TickNeedsTheTimer : Prop :=
  ∀ s : State, s.timerEnabled = false → exec .tick s = .fault .timerDisabled

/-- 40_refresh.md R110: over 5 consecutive TICKs every slot is addressed once, in round-robin order, and raw bits 0 to 4 are each
written once, with the level read at their own slot. -/
def Obligations.FiveTicksScanEverySlot : Prop :=
  ∀ s : State, s.timerEnabled = true →
    ∃ t1 t2 t3 t4 t5, exec .tick s = .next t1 ∧ exec .tick t1 = .next t2 ∧ exec .tick t2 = .next t3 ∧
      exec .tick t3 = .next t4 ∧ exec .tick t4 = .next t5 ∧
      t1.idx = s.idx + 1 ∧ t2.idx = s.idx + 2 ∧ t3.idx = s.idx + 3 ∧ t4.idx = s.idx + 4 ∧ t5.idx = s.idx ∧
      (∀ x ∈ ([(0, s), (1, t1), (2, t2), (3, t3), (4, t4)] : List (Fin 5 × State)),
        t5.raw.getLsbD (s.idx + x.1).val = (envAnswer Config.board.pinSwRead x.2 == Config.board.swPressedLevel)) ∧
      (∀ j, 5 ≤ j → t5.raw.getLsbD j = s.raw.getLsbD j) ∧ t5.env = s.env.drop 5

/-- 20_memory.md R66, the TICK column: what TICK does depends on `digit`, `led`, `idx` and ENV's answer alone, so nothing the
classifier or the configuration holds shows on the pins. -/
def Obligations.TickReadsOnlyItsColumn : Prop :=
  ∀ s u t v : State, s.digit = u.digit → s.led = u.led → s.idx = u.idx → s.env = u.env → s.draws = u.draws →
    exec .tick s = .next t → exec .tick u = .next v →
    ∃ es, t.trace = s.trace ++ es ∧ v.trace = u.trace ++ es ∧ t.idx = v.idx ∧
      t.raw.getLsbD s.idx.val = v.raw.getLsbD s.idx.val ∧ t.env = v.env

/-- 40_refresh.md R111 under the reference shift register of 60_exceptions.md R236 (general knowledge, log 14; a pin's direction: log 23): after a TICK at slot i
the latched outputs are the slot's byte, digit-enable i alone is ON (none at slot 4), and the clock is idle again. For every
board whose six output pins are different and every register contents before. -/
def Obligations.TickDisplaysTheSlotsByte : Prop :=
  ∀ (P : Params) (s : State) (r : ShiftReg), P.OutputPinsDistinct → (shiftRegRun P r s.trace).clk = P.clkIdle →
    (shiftRegRun P r (tick P s).trace).q = (if h : s.idx.val < 4 then s.digit[s.idx.val] else s.led) ∧
    (shiftRegRun P r (tick P s).trace).clk = P.clkIdle ∧
    (∀ j : Fin 4, digitOn P (tick P s).trace j = decide (j.val = s.idx.val)) ∧
    (∀ j : Fin 4, shownAt P r (tick P s).trace j = if j.val = s.idx.val then some s.digit[j] else none)

/-- 70_reset_and_hazards.md R260, R261: a TICK's first event is its read, and from the end of step 2 (5 events) to the end of the latch
pulse (31 events) all four digit-enables are OFF (the level last written,
log 23). For every board whose six output pins are different. -/
def Obligations.DigitsAreOffWhileShifting : Prop :=
  ∀ (P : Params) (s : State), P.OutputPinsDistinct →
    ∃ es, (tick P s).trace = s.trace ++ es ∧ es.head? = some (.read P.pinSwRead (envAnswer P.pinSwRead s)) ∧
      (∀ e ∈ es.tail, ∀ l, e ≠ .read P.pinSwRead l) ∧
      ∀ n, 5 ≤ n → n ≤ 31 → ∀ j : Fin 4, pinLevel P.pinDigit[j] (s.trace ++ es.take n) = some (!P.digitOnLevel)

/-! POLL. After the snapshot nothing in a POLL writes `raw`, so the snapshot r is `t.raw`. -/

/-- 42_classifier.md R165 (and R163, R164): a POLL's six lanes, each by its own counter, raw bit and stable bit. A locked lane only
counts down; an open lane takes the raw bit, and reloads its counter exactly when it flips. Stable bits 6 and 7 never change. -/
def Obligations.PollDebouncesSixLanes : Prop :=
  ∀ (now : Time) (s : State), s.initialised = true →
    ∃ t, exec (.poll now) s = .next t ∧
      (∀ j : Fin 6,
        if s.dbt[j] ≠ 0 then t.dbt[j] = s.dbt[j] - 1 ∧ t.stable.getLsbD j = s.stable.getLsbD j
        else if t.raw.getLsbD j = s.stable.getLsbD j then t.dbt[j] = 0 ∧ t.stable.getLsbD j = s.stable.getLsbD j
        else t.dbt[j] = Config.board.debounce ∧ t.stable.getLsbD j = t.raw.getLsbD j) ∧
      (∀ j, 6 ≤ j → t.stable.getLsbD j = s.stable.getLsbD j)

/-- 42_classifier.md R167: the zero branch. -/
def Obligations.PollWithNoKeysIsSilent : Prop :=
  ∀ (now : Time) (s : State), s.initialised = true →
    ∃ t, exec (.poll now) s = .next t ∧
      (t.stable = 0 → t.longPress = false ∧ t.rptDeadline = 0 ∧ t.lastCombo = s.lastCombo ∧ t.dblDeadline = s.dblDeadline ∧
        t.emits = s.emits)

/-- 42_classifier.md R168-R171: the change branch: PRESS or DOUBLE on a new press, judged on the old combination and deadline, which
are then replaced; nothing emitted otherwise; `longPress` cleared and the repeat deadline pushed to now + T_HOLD either way. -/
def Obligations.PollChangeIsPressOrDouble : Prop :=
  ∀ (now : Time) (s : State), s.initialised = true →
    ∃ t, exec (.poll now) s = .next t ∧
      (t.stable ≠ 0 → t.stable ≠ s.lastStable →
        t.longPress = false ∧ t.rptDeadline = now + Config.board.tHold ∧
        (AdoptsPress s t.raw → t.lastCombo = t.stable ∧ t.dblDeadline = now + Config.board.tDblclick ∧
          t.emits = s.emits ++ delivered s.handler
            (if t.stable = s.lastCombo ∧ 2 ^ 31 ≤ (now - s.dblDeadline).toNat then .double else .press) t.stable) ∧
        (¬ AdoptsPress s t.raw → t.lastCombo = s.lastCombo ∧ t.dblDeadline = s.dblDeadline ∧ t.emits = s.emits))

/-- 42_classifier.md R172, R173: the held branch: HOLD, or AUTO once a HOLD was emitted, when the repeat deadline is reached; else
nothing; the double-click fields untouched. -/
def Obligations.PollHeldIsHoldOrAuto : Prop :=
  ∀ (now : Time) (s : State), s.initialised = true →
    ∃ t, exec (.poll now) s = .next t ∧
      (t.stable ≠ 0 → t.stable = s.lastStable →
        t.lastCombo = s.lastCombo ∧ t.dblDeadline = s.dblDeadline ∧
        (if (now - s.rptDeadline).toNat < 2 ^ 31 then
          t.longPress = true ∧ t.rptDeadline = s.rptDeadline + Config.board.tRepeat ∧
          t.emits = s.emits ++ delivered s.handler (if s.longPress then .auto else .hold) t.stable
        else t.longPress = s.longPress ∧ t.rptDeadline = s.rptDeadline ∧ t.emits = s.emits))

/-- 42_classifier.md R177, with POLL's frame (20_memory.md R66): POLL commits `lastStable`, delivers at most one event and none without
a handler, changes no display or configuration field, no raw bit of an unconfigured key, and, with no TICK inside it, no
multiplexed raw bit and not `idx`. -/
def Obligations.PollCommitsAndWritesOnlyItsFields : Prop :=
  ∀ (now : Time) (s : State), s.initialised = true →
    ∃ t, exec (.poll now) s = .next t ∧ t.lastStable = t.stable ∧
      t = { s with
        raw := t.raw, dbt := t.dbt, stable := t.stable, lastStable := t.lastStable, lastCombo := t.lastCombo,
        dblDeadline := t.dblDeadline, rptDeadline := t.rptDeadline, longPress := t.longPress, emits := t.emits,
        idx := t.idx, trace := t.trace, env := t.env, draws := t.draws, gaps := t.gaps } ∧
      (∃ new, t.emits = s.emits ++ new ∧ new.length ≤ 1 ∧ (s.handler = 0 → new = [])) ∧
      (∀ k : Fin 3, s.extraCfg[k] = false → t.raw.getLsbD (5 + k.val) = s.raw.getLsbD (5 + k.val)) ∧
      (s.gaps = [] → t.idx = s.idx ∧ ∀ j, j < 5 → t.raw.getLsbD j = s.raw.getLsbD j)

/-- 42_classifier.md R161: step 1 with no TICK inside the POLL: the configured keys' pins are read once each in the order A, B, C, each
answer goes to its own raw bit, and unconfigured keys read no pin and keep their bit. -/
def Obligations.PollFoldsTheConfiguredKeys : Prop :=
  ∀ (now : Time) (s : State) (ls rest : List Bool), s.initialised = true → s.gaps = [] → s.env = ls ++ rest →
    ls.length = (([0, 1, 2] : List (Fin 3)).filter (fun k => s.extraCfg[k])).length →
    ∃ t, exec (.poll now) s = .next t ∧
      t.trace = s.trace ++ ((([0, 1, 2] : List (Fin 3)).filter (fun k => s.extraCfg[k])).zip ls).map
        (fun x => .read s.extraPin[x.1] x.2) ∧
      t.env = rest ∧
      (∀ x ∈ (([0, 1, 2] : List (Fin 3)).filter (fun k => s.extraCfg[k])).zip ls,
        t.raw.getLsbD (5 + x.1.val) = (x.2 == Config.board.extraPressedLevel)) ∧
      (∀ k : Fin 3, s.extraCfg[k] = false → t.raw.getLsbD (5 + k.val) = s.raw.getLsbD (5 + k.val)) ∧
      (∀ j, j < 5 → t.raw.getLsbD j = s.raw.getLsbD j)

/-- 20_memory.md R57, 42_classifier.md R161, R162: a POLL's order for every set of configured keys: each fold in the order A, B, C,
after each the TICKs its boundary holds, any number of them, and then the snapshot. And one TICK after the fold number b + 1: its
read stands between the folds' reads in the trace, each raw bit holds its own answer, and the POLL already debounces the bit the
TICK sampled. -/
def Obligations.TickInsidePollIsInItsSnapshot : Prop :=
  ∀ (now : Time) (s : State), s.initialised = true →
    let ks := ([0, 1, 2] : List (Fin 3)).filter (fun k => s.extraCfg[k])
    (let fold : State → Fin 3 → State := fun u k =>
        let v := writeRawBit (5 + k.val) (envAnswer s.extraPin[k] u == Config.board.extraPressedLevel)
          (readLevel s.extraPin[k] u)
        match u.gaps with
        | [] => v
        | m :: rest => ticks Config.board m { v with gaps := rest }
      let u := ks.foldl fold s
      ∃ t, exec (.poll now) s = .next t ∧
        t.raw = u.raw ∧ t.idx = u.idx ∧ t.trace = u.trace ∧ t.env = u.env ∧ t.draws = u.draws ∧ t.gaps = u.gaps) ∧
    (∀ (b : Nat) (before after rest : List Bool) (l : Bool), s.timerEnabled = true → s.gaps = List.replicate b 0 ++ [1] →
      before.length = b + 1 → b + 1 + after.length = ks.length → s.env = before ++ l :: (after ++ rest) →
      ∃ t, exec (.poll now) s = .next t ∧ t.idx = s.idx + 1 ∧ t.env = rest ∧
        t.trace = s.trace ++ ((ks.take (b + 1)).zip before).map (fun x => .read s.extraPin[x.1] x.2) ++
          (.read Config.board.pinSwRead l :: (digitsOff Config.board ++
            (shiftOut Config.board (if h : s.idx.val < 4 then s.digit[s.idx.val] else s.led) ++
              enableSlot Config.board s.idx))) ++
          ((ks.drop (b + 1)).zip after).map (fun x => .read s.extraPin[x.1] x.2) ∧
        (∀ x ∈ ks.zip (before ++ after), t.raw.getLsbD (5 + x.1.val) = (x.2 == Config.board.extraPressedLevel)) ∧
        t.raw.getLsbD s.idx.val = (l == Config.board.swPressedLevel) ∧
        (s.dbt[s.idx.val]'(by omega) = 0 → t.stable.getLsbD s.idx.val = (l == Config.board.swPressedLevel)))

/-- 20_memory.md R60 and its alternative 93_implementation_defined.md I7: an atomic fold changes its own raw bit alone, so it loses no
TICK's bit; a byte-wide fold with one TICK inside it puts the TICK's bit back to its old value. -/
def Obligations.AtomicFoldLosesNoTicksBit : Prop :=
  (∀ (P : Params) (k : Fin 3) (s : State), P.rawFold = .atomicBit → ∀ j, j ≠ P.extraKeyBit[k].val →
    (foldKey P k s).raw.getLsbD j = s.raw.getLsbD j) ∧
  (∀ (P : Params) (k : Fin 3) (s : State), P.rawFold = .byteRmw → s.timerEnabled = true → s.gaps = [1] →
    P.extraKeyBit[k].val ≠ s.idx.val →
    (foldKey P k s).raw.getLsbD s.idx.val = s.raw.getLsbD s.idx.val ∧ (foldKey P k s).idx = s.idx + 1)

/-- 42_classifier.md R178, R180 item 8: with no handler a POLL does everything it does with one, but for the delivery. -/
def Obligations.PollWithoutHandlerAdvancesAlike : Prop :=
  ∀ (now : Time) (s : State), s.initialised = true →
    ∃ t, exec (.poll now) s = .next t ∧
      exec (.poll now) { s with handler := 0 } = .next { t with handler := 0, emits := s.emits }

/-- 42_classifier.md R181(a): a POLL without a new press emits no PRESS and no DOUBLE; and, from a settled classifier, one in which a
key is released and none is pressed emits nothing at all. -/
def Obligations.ReleasesAreSilent : Prop :=
  ∀ (now : Time) (s t : State), s.initialised = true → exec (.poll now) s = .next t → ¬ AdoptsPress s t.raw →
    (∃ new, t.emits = s.emits ++ new ∧ ∀ e ∈ new,
      e.word = Config.board.eventCode.hold ||| t.stable.setWidth 16 ∨
      e.word = Config.board.eventCode.auto ||| t.stable.setWidth 16) ∧
    (s.lastStable = s.stable → (∃ j : Fin 6, s.stable.getLsbD j = true ∧ t.stable.getLsbD j = false) → t.emits = s.emits)

/-- 10_state.md R34 items 4 and 5: from a settled classifier, `stable` differs from `lastStable` after step 2 exactly when some lane
flipped, and a new press is such a change. -/
def Obligations.ChangeMeansALaneFlipped : Prop :=
  ∀ (now : Time) (s t : State), s.initialised = true → s.lastStable = s.stable → exec (.poll now) s = .next t →
    (t.stable ≠ s.lastStable ↔ ∃ j : Fin 6, t.stable.getLsbD j ≠ s.stable.getLsbD j) ∧
    (AdoptsPress s t.raw → t.stable ≠ s.lastStable)

/-- 42_classifier.md R166 items 1 and 3: while a lane's counter is nonzero, POLLs only count it down and its stable bit cannot change,
whatever the raw bit does, whatever `now` is, and whatever TICKs and commands other than INIT fall between. -/
def Obligations.LockoutMasksBounce : Prop :=
  ∀ (j : Fin 6) (is : List Instr) (s : State), s.initialised = true → s.timerEnabled = true → .init ∉ is →
    is.countP isPoll ≤ s.dbt[j].toNat →
    ∃ t, runAll is s = .next t ∧ t.dbt[j].toNat = s.dbt[j].toNat - is.countP isPoll ∧
      t.stable.getLsbD j = s.stable.getLsbD j

/-- 42_classifier.md R181(b): a combination C held from the POLL at t0, with a POLL at every ms after it and `stable` unchanged: exactly
one HOLD, at t0 + 500, and an AUTO every 50 ms from there on, across any wrap of the clock, whatever TICKs and commands other than
INIT and SETHANDLER fall between the POLLs and whichever extra keys are configured. The state is the one PRESS at t0 leaves. -/
def Obligations.HoldThenAutoRepeat : Prop :=
  ∀ (t0 : Time) (C : Byte) (s : State) (blocks : List (List Instr)), s.initialised = true → s.timerEnabled = true →
    s.handler ≠ 0 → C ≠ 0 → s.stable = C → s.lastStable = C → s.longPress = false → s.rptDeadline = t0 + 500 →
    (∀ b ∈ blocks, ∀ i ∈ b, betweenPolls i = true) →
    (∀ k, k ≤ blocks.length → ∀ u, runAll (pollEveryMs t0 (blocks.take k)) s = .next u → u.stable = C) →
    ∃ t, runAll (pollEveryMs t0 blocks) s = .next t ∧
      t.emits = s.emits ++ (List.range (if blocks.length < 500 then 0 else 1 + (blocks.length - 500) / 50)).map (fun k =>
        ⟨s.handler, (if k = 0 then 0x0400#16 else 0x0800#16) ||| C.setWidth 16⟩)

/-- 42_classifier.md R174: the repeat reload of a POLL, on a block of any size and for every parameter record with NUM_DEBOUNCED <= 8
(00_scope.md R10): from the deadline itself under DEADLINE, from `now` under NOW. -/
def Obligations.RepeatReloadFollowsTheBase : Prop :=
  ∀ (W CW ND NS NX NB : Nat) (P : Sized.Params W CW ND NS NX NB) (now : BitVec W) (s : Sized.State W CW ND NS NX NB),
    NB ≤ 8 → s.initialised = true →
    ∃ t, execWith P (.poll now) s = .next t ∧
      (t.stable ≠ 0 → t.stable = s.lastStable → reached P now s.rptDeadline = true →
        (P.repeatBase = .deadline → t.rptDeadline = s.rptDeadline + P.tRepeat) ∧
        (P.repeatBase = .now → t.rptDeadline = now + P.tRepeat))

/-- 00_scope.md R9, D11, D27 with 42_classifier.md R163-R165: on a block with NUM_DEBOUNCED lanes of COUNTER_WIDTH bits, of any size with
NUM_DEBOUNCED <= 8 (R10), a POLL debounces each lane by its own counter, raw bit and stable bit; the stable bits above the lanes
never change. -/
def Obligations.PollDebouncesEveryLaneAtAnySize : Prop :=
  ∀ (W CW ND NS NX NB : Nat) (P : Sized.Params W CW ND NS NX NB) (now : BitVec W) (s : Sized.State W CW ND NS NX NB),
    NB ≤ 8 → s.initialised = true →
    ∃ t, execWith P (.poll now) s = .next t ∧
      (∀ j : Fin NB,
        if s.dbt[j] ≠ 0 then t.dbt[j] = s.dbt[j] - 1 ∧ t.stable.getLsbD j = s.stable.getLsbD j
        else if t.raw.getLsbD j = s.stable.getLsbD j then t.dbt[j] = 0 ∧ t.stable.getLsbD j = s.stable.getLsbD j
        else t.dbt[j] = P.debounce ∧ t.stable.getLsbD j = t.raw.getLsbD j) ∧
      (∀ j, NB ≤ j → t.stable.getLsbD j = s.stable.getLsbD j)

/-- 00_scope.md R9, D27 with 40_refresh.md R107 and 20_memory.md R57: on a block of any size, n TICKs in a row go n slots on, modulo
NUM_SLOTS, each samples its own raw bit, and the raw bits above the slots never change. -/
def Obligations.TicksScanEverySlotAtAnySize : Prop :=
  ∀ (W CW ND NS NX NB : Nat) (P : Sized.Params W CW ND NS NX NB) (s : Sized.State W CW ND NS NX NB) (ls rest : List Bool),
    NS ≤ 8 → s.timerEnabled = true → s.env = ls ++ rest → ls.length ≤ NS →
    (ticks P ls.length s).idx.val = (s.idx.val + ls.length) % NS ∧
    (∀ k (h : k < ls.length), (ticks P ls.length s).raw.getLsbD ((s.idx.val + k) % NS) = (ls[k] == P.swPressedLevel)) ∧
    (∀ j, NS ≤ j → (ticks P ls.length s).raw.getLsbD j = s.raw.getLsbD j)

/-- 42_classifier.md R181(c): a new press at `now` of the combination last pressed at t1 is DOUBLE if less than 200 ms have passed, else
PRESS, across any wrap; and only INIT and a POLL with a new press change the remembered combination and its window. -/
def Obligations.SecondPressWithin200IsDouble : Prop :=
  (∀ (now t1 : Time) (s t : State), s.initialised = true → s.handler ≠ 0 → s.lastStable = s.stable →
    s.dblDeadline = t1 + 200 → (now - t1).toNat < 2 ^ 31 → exec (.poll now) s = .next t → AdoptsPress s t.raw →
    t.stable = s.lastCombo →
    t.emits = s.emits ++ [⟨s.handler, (if (now - t1).toNat < 200 then 0x0200#16 else 0x0100#16) ||| t.stable.setWidth 16⟩]) ∧
  (∀ (i : Instr) (s t : State), exec i s = .next t → i ≠ .init → ((∀ now, i ≠ .poll now) ∨ ¬ AdoptsPress s t.raw) →
    t.lastCombo = s.lastCombo ∧ t.dblDeadline = s.dblDeadline)

/-- 00_scope.md R13 under MODULAR, 42_classifier.md R175, under the premise of 70_reset_and_hazards.md R267, for every clock width W >= 2
(D24): as long as the clock and the deadline are within 2^(W-1) - 1 ms of each other, `before` and `reached` agree with real time
across every wrap. -/
def Obligations.TimeComparisonIsWrapSafe : Prop :=
  ∀ (W CW ND NS NX NB : Nat) (P : Sized.Params W CW ND NS NX NB) (now deadline : Nat),
    2 ≤ W → P.timeCompare = .modular → withinClockRange W now deadline →
    before P (BitVec.ofNat W now) (BitVec.ofNat W deadline) = decide (now < deadline) ∧
    reached P (BitVec.ofNat W now) (BitVec.ofNat W deadline) = decide (deadline ≤ now)

/-- 00_scope.md R10: the event kind and the full key bitmap stay separable in one event word. -/
def Obligations.EventWordIsSeparable : Prop :=
  ∀ (k k' : EventKind) (m m' : Byte),
    (eventWord Config.board k m).setWidth 8 = m ∧
    (eventWord Config.board k m = eventWord Config.board k' m' → k = k' ∧ m = m')

/-! The whole machine. -/

/-- 20_memory.md R66, the writes of the access matrix: outside INIT, each field is changed only by the commands that own it, and `idx`
and raw bits 0 to 4 only by TICKs. -/
def Obligations.OnlyOwnersWriteTheirFields : Prop :=
  ∀ (i : Instr) (s t : State), exec i s = .next t → i ≠ .init →
    ((match i with | .showSegs _ _ _ _ => True | .shownum _ _ => True | .clear => True | _ => False) ∨ t.digit = s.digit) ∧
    ((match i with | .setleds _ _ => True | .clearleds _ => True | _ => False) ∨ t.led = s.led) ∧
    ((match i with | .poll _ => True | _ => False) ∨
      (t.dbt = s.dbt ∧ t.stable = s.stable ∧ t.lastStable = s.lastStable ∧ t.lastCombo = s.lastCombo ∧
        t.dblDeadline = s.dblDeadline ∧ t.rptDeadline = s.rptDeadline ∧ t.longPress = s.longPress ∧ t.emits = s.emits ∧
        ∀ j, 5 ≤ j → t.raw.getLsbD j = s.raw.getLsbD j)) ∧
    ((match i with | .sethandler _ => True | _ => False) ∨ t.handler = s.handler) ∧
    ((match i with | .setextrakey _ _ => True | _ => False) ∨ (t.extraCfg = s.extraCfg ∧ t.extraPin = s.extraPin)) ∧
    (i ≠ .tick → s.gaps = [] → t.idx = s.idx ∧ ∀ j, j < 5 → t.raw.getLsbD j = s.raw.getLsbD j) ∧
    t.initialised = s.initialised ∧ t.timerEnabled = s.timerEnabled

/-- The power-on state meets the invariant. It holds there because of the values log 1 chose. -/
def Obligations.PowerOnMeetsTheInvariant : Prop :=
  StateInv State.reset

/-- 10_state.md R34 with the control fields and the deliveries: every step from a state that meets the invariant leads to one that does:
legal fields, a settled classifier, consistent control fields, and only legal event words ever delivered. -/
def Obligations.EveryStepKeepsTheInvariant : Prop :=
  ∀ s t : State, StateInv s → step s = .next t → StateInv t
end

