-- ==== Sys2Proof/Laws/Bits.lean ====
section
/-! SUPPORT. What writing one bit of a byte does. -/

namespace Sys2Proof.Machine

/-- Bit i becomes b and every other bit stays (00_scope.md R12). -/
theorem getLsbD_setBit (v : Byte) (i : Nat) (b : Bool) (hi : i < 8) (j : Nat) :
    (setBit v i b).getLsbD j = if j = i then b else v.getLsbD j := by
  by_cases hj : j < 8
  · have one : ∀ n : Fin 8, ∀ m : Fin 8, (1#8 <<< n.val).getLsbD m.val = decide (m.val = n.val) := by decide
    have h := one ⟨i, hi⟩ ⟨j, hj⟩
    cases b <;> simp only [setBit, if_true, if_false, Bool.false_eq_true, BitVec.getLsbD_or, BitVec.getLsbD_and,
      BitVec.getLsbD_not, hj, decide_true, Bool.true_and]
    all_goals
      rw [h]
      by_cases e : j = i <;> simp [e]
  · have e : j ≠ i := by omega
    rw [if_neg e, BitVec.getLsbD_of_ge _ j (by omega), BitVec.getLsbD_of_ge _ j (by omega)]

/-- Writing one bit leaves every other bit alone, wherever the bit written stands. -/
theorem getLsbD_setBit_of_ne (v : Byte) (i : Nat) (b : Bool) (j : Nat) (h : j ≠ i) :
    (setBit v i b).getLsbD j = v.getLsbD j := by
  by_cases hi : i < 8
  · rw [getLsbD_setBit v i b hi, if_neg h]
  · have z : (1#8 <<< i) = 0#8 := BitVec.shiftLeft_eq_zero (by omega)
    have n : v &&& ~~~(0#8) = v := by rw [BitVec.not_zero, BitVec.and_allOnes]
    cases b <;> simp only [setBit, z, n, if_true, if_false, Bool.false_eq_true, BitVec.or_zero]

/-- Writing the value a bit has changes nothing. -/
theorem setBit_self (v : Byte) (i : Nat) (hi : i < 8) : setBit v i (v.getLsbD i) = v := by
  apply BitVec.eq_of_getLsbD_eq
  intro j _
  rw [getLsbD_setBit v i _ hi]
  split
  · rename_i e; rw [e]
  · rfl

end Sys2Proof.Machine
end

