-- ==== Sys2Proof/Laws/State.lean ====
section
/-! SUPPORT. One lemma per field per named update of State, of any size, each by rfl, so that no proof unfolds an update. -/

namespace Sys2Proof.Machine

variable {W CW ND NS NX NB : Nat} (s : Sized.State W CW ND NS NX NB)

/-! `drive` -/

@[simp] theorem drive_digit (es : List PinEvent) : (drive es s).digit = s.digit := rfl
@[simp] theorem drive_led (es : List PinEvent) : (drive es s).led = s.led := rfl
@[simp] theorem drive_raw (es : List PinEvent) : (drive es s).raw = s.raw := rfl
@[simp] theorem drive_dbt (es : List PinEvent) : (drive es s).dbt = s.dbt := rfl
@[simp] theorem drive_stable (es : List PinEvent) : (drive es s).stable = s.stable := rfl
@[simp] theorem drive_lastStable (es : List PinEvent) : (drive es s).lastStable = s.lastStable := rfl
@[simp] theorem drive_lastCombo (es : List PinEvent) : (drive es s).lastCombo = s.lastCombo := rfl
@[simp] theorem drive_dblDeadline (es : List PinEvent) : (drive es s).dblDeadline = s.dblDeadline := rfl
@[simp] theorem drive_rptDeadline (es : List PinEvent) : (drive es s).rptDeadline = s.rptDeadline := rfl
@[simp] theorem drive_longPress (es : List PinEvent) : (drive es s).longPress = s.longPress := rfl
@[simp] theorem drive_idx (es : List PinEvent) : (drive es s).idx = s.idx := rfl
@[simp] theorem drive_handler (es : List PinEvent) : (drive es s).handler = s.handler := rfl
@[simp] theorem drive_extraCfg (es : List PinEvent) : (drive es s).extraCfg = s.extraCfg := rfl
@[simp] theorem drive_extraPin (es : List PinEvent) : (drive es s).extraPin = s.extraPin := rfl
@[simp] theorem drive_initialised (es : List PinEvent) : (drive es s).initialised = s.initialised := rfl
@[simp] theorem drive_timerEnabled (es : List PinEvent) : (drive es s).timerEnabled = s.timerEnabled := rfl
@[simp] theorem drive_refused (es : List PinEvent) : (drive es s).refused = s.refused := rfl
@[simp] theorem drive_firstRefusal (es : List PinEvent) : (drive es s).firstRefusal = s.firstRefusal := rfl
@[simp] theorem drive_trace (es : List PinEvent) : (drive es s).trace = s.trace ++ es := rfl
@[simp] theorem drive_emits (es : List PinEvent) : (drive es s).emits = s.emits := rfl
@[simp] theorem drive_inbox (es : List PinEvent) : (drive es s).inbox = s.inbox := rfl
@[simp] theorem drive_gaps (es : List PinEvent) : (drive es s).gaps = s.gaps := rfl
@[simp] theorem drive_env (es : List PinEvent) : (drive es s).env = s.env := rfl
@[simp] theorem drive_draws (es : List PinEvent) : (drive es s).draws = s.draws := rfl

/-! `readLevel` -/

@[simp] theorem readLevel_digit (p : PinId) : (readLevel p s).digit = s.digit := rfl
@[simp] theorem readLevel_led (p : PinId) : (readLevel p s).led = s.led := rfl
@[simp] theorem readLevel_raw (p : PinId) : (readLevel p s).raw = s.raw := rfl
@[simp] theorem readLevel_dbt (p : PinId) : (readLevel p s).dbt = s.dbt := rfl
@[simp] theorem readLevel_stable (p : PinId) : (readLevel p s).stable = s.stable := rfl
@[simp] theorem readLevel_lastStable (p : PinId) : (readLevel p s).lastStable = s.lastStable := rfl
@[simp] theorem readLevel_lastCombo (p : PinId) : (readLevel p s).lastCombo = s.lastCombo := rfl
@[simp] theorem readLevel_dblDeadline (p : PinId) : (readLevel p s).dblDeadline = s.dblDeadline := rfl
@[simp] theorem readLevel_rptDeadline (p : PinId) : (readLevel p s).rptDeadline = s.rptDeadline := rfl
@[simp] theorem readLevel_longPress (p : PinId) : (readLevel p s).longPress = s.longPress := rfl
@[simp] theorem readLevel_idx (p : PinId) : (readLevel p s).idx = s.idx := rfl
@[simp] theorem readLevel_handler (p : PinId) : (readLevel p s).handler = s.handler := rfl
@[simp] theorem readLevel_extraCfg (p : PinId) : (readLevel p s).extraCfg = s.extraCfg := rfl
@[simp] theorem readLevel_extraPin (p : PinId) : (readLevel p s).extraPin = s.extraPin := rfl
@[simp] theorem readLevel_initialised (p : PinId) : (readLevel p s).initialised = s.initialised := rfl
@[simp] theorem readLevel_timerEnabled (p : PinId) : (readLevel p s).timerEnabled = s.timerEnabled := rfl
@[simp] theorem readLevel_refused (p : PinId) : (readLevel p s).refused = s.refused := rfl
@[simp] theorem readLevel_firstRefusal (p : PinId) : (readLevel p s).firstRefusal = s.firstRefusal := rfl
@[simp] theorem readLevel_trace (p : PinId) : (readLevel p s).trace = s.trace ++ [.read p (envAnswer p s)] := rfl
@[simp] theorem readLevel_emits (p : PinId) : (readLevel p s).emits = s.emits := rfl
@[simp] theorem readLevel_inbox (p : PinId) : (readLevel p s).inbox = s.inbox := rfl
@[simp] theorem readLevel_gaps (p : PinId) : (readLevel p s).gaps = s.gaps := rfl
@[simp] theorem readLevel_env (p : PinId) : (readLevel p s).env = s.env.tail := rfl
@[simp] theorem readLevel_draws (p : PinId) : (readLevel p s).draws = s.draws + 1 := rfl

/-! `writeDigit` -/

@[simp] theorem writeDigit_digit (p : Fin ND) (b : Byte) : (writeDigit p b s).digit = s.digit.set p b := rfl
@[simp] theorem writeDigit_led (p : Fin ND) (b : Byte) : (writeDigit p b s).led = s.led := rfl
@[simp] theorem writeDigit_raw (p : Fin ND) (b : Byte) : (writeDigit p b s).raw = s.raw := rfl
@[simp] theorem writeDigit_dbt (p : Fin ND) (b : Byte) : (writeDigit p b s).dbt = s.dbt := rfl
@[simp] theorem writeDigit_stable (p : Fin ND) (b : Byte) : (writeDigit p b s).stable = s.stable := rfl
@[simp] theorem writeDigit_lastStable (p : Fin ND) (b : Byte) : (writeDigit p b s).lastStable = s.lastStable := rfl
@[simp] theorem writeDigit_lastCombo (p : Fin ND) (b : Byte) : (writeDigit p b s).lastCombo = s.lastCombo := rfl
@[simp] theorem writeDigit_dblDeadline (p : Fin ND) (b : Byte) : (writeDigit p b s).dblDeadline = s.dblDeadline := rfl
@[simp] theorem writeDigit_rptDeadline (p : Fin ND) (b : Byte) : (writeDigit p b s).rptDeadline = s.rptDeadline := rfl
@[simp] theorem writeDigit_longPress (p : Fin ND) (b : Byte) : (writeDigit p b s).longPress = s.longPress := rfl
@[simp] theorem writeDigit_idx (p : Fin ND) (b : Byte) : (writeDigit p b s).idx = s.idx := rfl
@[simp] theorem writeDigit_handler (p : Fin ND) (b : Byte) : (writeDigit p b s).handler = s.handler := rfl
@[simp] theorem writeDigit_extraCfg (p : Fin ND) (b : Byte) : (writeDigit p b s).extraCfg = s.extraCfg := rfl
@[simp] theorem writeDigit_extraPin (p : Fin ND) (b : Byte) : (writeDigit p b s).extraPin = s.extraPin := rfl
@[simp] theorem writeDigit_initialised (p : Fin ND) (b : Byte) : (writeDigit p b s).initialised = s.initialised := rfl
@[simp] theorem writeDigit_timerEnabled (p : Fin ND) (b : Byte) :
    (writeDigit p b s).timerEnabled = s.timerEnabled := rfl
@[simp] theorem writeDigit_refused (p : Fin ND) (b : Byte) : (writeDigit p b s).refused = s.refused := rfl
@[simp] theorem writeDigit_firstRefusal (p : Fin ND) (b : Byte) :
    (writeDigit p b s).firstRefusal = s.firstRefusal := rfl
@[simp] theorem writeDigit_trace (p : Fin ND) (b : Byte) : (writeDigit p b s).trace = s.trace := rfl
@[simp] theorem writeDigit_emits (p : Fin ND) (b : Byte) : (writeDigit p b s).emits = s.emits := rfl
@[simp] theorem writeDigit_inbox (p : Fin ND) (b : Byte) : (writeDigit p b s).inbox = s.inbox := rfl
@[simp] theorem writeDigit_gaps (p : Fin ND) (b : Byte) : (writeDigit p b s).gaps = s.gaps := rfl
@[simp] theorem writeDigit_env (p : Fin ND) (b : Byte) : (writeDigit p b s).env = s.env := rfl
@[simp] theorem writeDigit_draws (p : Fin ND) (b : Byte) : (writeDigit p b s).draws = s.draws := rfl

/-! `clearLedBits` -/

@[simp] theorem clearLedBits_digit (mask : Byte) : (clearLedBits mask s).digit = s.digit := rfl
@[simp] theorem clearLedBits_led (mask : Byte) : (clearLedBits mask s).led = s.led &&& ~~~mask := rfl
@[simp] theorem clearLedBits_raw (mask : Byte) : (clearLedBits mask s).raw = s.raw := rfl
@[simp] theorem clearLedBits_dbt (mask : Byte) : (clearLedBits mask s).dbt = s.dbt := rfl
@[simp] theorem clearLedBits_stable (mask : Byte) : (clearLedBits mask s).stable = s.stable := rfl
@[simp] theorem clearLedBits_lastStable (mask : Byte) : (clearLedBits mask s).lastStable = s.lastStable := rfl
@[simp] theorem clearLedBits_lastCombo (mask : Byte) : (clearLedBits mask s).lastCombo = s.lastCombo := rfl
@[simp] theorem clearLedBits_dblDeadline (mask : Byte) : (clearLedBits mask s).dblDeadline = s.dblDeadline := rfl
@[simp] theorem clearLedBits_rptDeadline (mask : Byte) : (clearLedBits mask s).rptDeadline = s.rptDeadline := rfl
@[simp] theorem clearLedBits_longPress (mask : Byte) : (clearLedBits mask s).longPress = s.longPress := rfl
@[simp] theorem clearLedBits_idx (mask : Byte) : (clearLedBits mask s).idx = s.idx := rfl
@[simp] theorem clearLedBits_handler (mask : Byte) : (clearLedBits mask s).handler = s.handler := rfl
@[simp] theorem clearLedBits_extraCfg (mask : Byte) : (clearLedBits mask s).extraCfg = s.extraCfg := rfl
@[simp] theorem clearLedBits_extraPin (mask : Byte) : (clearLedBits mask s).extraPin = s.extraPin := rfl
@[simp] theorem clearLedBits_initialised (mask : Byte) : (clearLedBits mask s).initialised = s.initialised := rfl
@[simp] theorem clearLedBits_timerEnabled (mask : Byte) : (clearLedBits mask s).timerEnabled = s.timerEnabled := rfl
@[simp] theorem clearLedBits_refused (mask : Byte) : (clearLedBits mask s).refused = s.refused := rfl
@[simp] theorem clearLedBits_firstRefusal (mask : Byte) : (clearLedBits mask s).firstRefusal = s.firstRefusal := rfl
@[simp] theorem clearLedBits_trace (mask : Byte) : (clearLedBits mask s).trace = s.trace := rfl
@[simp] theorem clearLedBits_emits (mask : Byte) : (clearLedBits mask s).emits = s.emits := rfl
@[simp] theorem clearLedBits_inbox (mask : Byte) : (clearLedBits mask s).inbox = s.inbox := rfl
@[simp] theorem clearLedBits_gaps (mask : Byte) : (clearLedBits mask s).gaps = s.gaps := rfl
@[simp] theorem clearLedBits_env (mask : Byte) : (clearLedBits mask s).env = s.env := rfl
@[simp] theorem clearLedBits_draws (mask : Byte) : (clearLedBits mask s).draws = s.draws := rfl

/-! `setLedBits` -/

@[simp] theorem setLedBits_digit (bits : Byte) : (setLedBits bits s).digit = s.digit := rfl
@[simp] theorem setLedBits_led (bits : Byte) : (setLedBits bits s).led = s.led ||| bits := rfl
@[simp] theorem setLedBits_raw (bits : Byte) : (setLedBits bits s).raw = s.raw := rfl
@[simp] theorem setLedBits_dbt (bits : Byte) : (setLedBits bits s).dbt = s.dbt := rfl
@[simp] theorem setLedBits_stable (bits : Byte) : (setLedBits bits s).stable = s.stable := rfl
@[simp] theorem setLedBits_lastStable (bits : Byte) : (setLedBits bits s).lastStable = s.lastStable := rfl
@[simp] theorem setLedBits_lastCombo (bits : Byte) : (setLedBits bits s).lastCombo = s.lastCombo := rfl
@[simp] theorem setLedBits_dblDeadline (bits : Byte) : (setLedBits bits s).dblDeadline = s.dblDeadline := rfl
@[simp] theorem setLedBits_rptDeadline (bits : Byte) : (setLedBits bits s).rptDeadline = s.rptDeadline := rfl
@[simp] theorem setLedBits_longPress (bits : Byte) : (setLedBits bits s).longPress = s.longPress := rfl
@[simp] theorem setLedBits_idx (bits : Byte) : (setLedBits bits s).idx = s.idx := rfl
@[simp] theorem setLedBits_handler (bits : Byte) : (setLedBits bits s).handler = s.handler := rfl
@[simp] theorem setLedBits_extraCfg (bits : Byte) : (setLedBits bits s).extraCfg = s.extraCfg := rfl
@[simp] theorem setLedBits_extraPin (bits : Byte) : (setLedBits bits s).extraPin = s.extraPin := rfl
@[simp] theorem setLedBits_initialised (bits : Byte) : (setLedBits bits s).initialised = s.initialised := rfl
@[simp] theorem setLedBits_timerEnabled (bits : Byte) : (setLedBits bits s).timerEnabled = s.timerEnabled := rfl
@[simp] theorem setLedBits_refused (bits : Byte) : (setLedBits bits s).refused = s.refused := rfl
@[simp] theorem setLedBits_firstRefusal (bits : Byte) : (setLedBits bits s).firstRefusal = s.firstRefusal := rfl
@[simp] theorem setLedBits_trace (bits : Byte) : (setLedBits bits s).trace = s.trace := rfl
@[simp] theorem setLedBits_emits (bits : Byte) : (setLedBits bits s).emits = s.emits := rfl
@[simp] theorem setLedBits_inbox (bits : Byte) : (setLedBits bits s).inbox = s.inbox := rfl
@[simp] theorem setLedBits_gaps (bits : Byte) : (setLedBits bits s).gaps = s.gaps := rfl
@[simp] theorem setLedBits_env (bits : Byte) : (setLedBits bits s).env = s.env := rfl
@[simp] theorem setLedBits_draws (bits : Byte) : (setLedBits bits s).draws = s.draws := rfl

/-! `writeRawBit` -/

@[simp] theorem writeRawBit_digit (i : Nat) (b : Bool) : (writeRawBit i b s).digit = s.digit := rfl
@[simp] theorem writeRawBit_led (i : Nat) (b : Bool) : (writeRawBit i b s).led = s.led := rfl
@[simp] theorem writeRawBit_raw (i : Nat) (b : Bool) : (writeRawBit i b s).raw = setBit s.raw i b := rfl
@[simp] theorem writeRawBit_dbt (i : Nat) (b : Bool) : (writeRawBit i b s).dbt = s.dbt := rfl
@[simp] theorem writeRawBit_stable (i : Nat) (b : Bool) : (writeRawBit i b s).stable = s.stable := rfl
@[simp] theorem writeRawBit_lastStable (i : Nat) (b : Bool) : (writeRawBit i b s).lastStable = s.lastStable := rfl
@[simp] theorem writeRawBit_lastCombo (i : Nat) (b : Bool) : (writeRawBit i b s).lastCombo = s.lastCombo := rfl
@[simp] theorem writeRawBit_dblDeadline (i : Nat) (b : Bool) : (writeRawBit i b s).dblDeadline = s.dblDeadline := rfl
@[simp] theorem writeRawBit_rptDeadline (i : Nat) (b : Bool) : (writeRawBit i b s).rptDeadline = s.rptDeadline := rfl
@[simp] theorem writeRawBit_longPress (i : Nat) (b : Bool) : (writeRawBit i b s).longPress = s.longPress := rfl
@[simp] theorem writeRawBit_idx (i : Nat) (b : Bool) : (writeRawBit i b s).idx = s.idx := rfl
@[simp] theorem writeRawBit_handler (i : Nat) (b : Bool) : (writeRawBit i b s).handler = s.handler := rfl
@[simp] theorem writeRawBit_extraCfg (i : Nat) (b : Bool) : (writeRawBit i b s).extraCfg = s.extraCfg := rfl
@[simp] theorem writeRawBit_extraPin (i : Nat) (b : Bool) : (writeRawBit i b s).extraPin = s.extraPin := rfl
@[simp] theorem writeRawBit_initialised (i : Nat) (b : Bool) : (writeRawBit i b s).initialised = s.initialised := rfl
@[simp] theorem writeRawBit_timerEnabled (i : Nat) (b : Bool) : (writeRawBit i b s).timerEnabled = s.timerEnabled := rfl
@[simp] theorem writeRawBit_refused (i : Nat) (b : Bool) : (writeRawBit i b s).refused = s.refused := rfl
@[simp] theorem writeRawBit_firstRefusal (i : Nat) (b : Bool) : (writeRawBit i b s).firstRefusal = s.firstRefusal := rfl
@[simp] theorem writeRawBit_trace (i : Nat) (b : Bool) : (writeRawBit i b s).trace = s.trace := rfl
@[simp] theorem writeRawBit_emits (i : Nat) (b : Bool) : (writeRawBit i b s).emits = s.emits := rfl
@[simp] theorem writeRawBit_inbox (i : Nat) (b : Bool) : (writeRawBit i b s).inbox = s.inbox := rfl
@[simp] theorem writeRawBit_gaps (i : Nat) (b : Bool) : (writeRawBit i b s).gaps = s.gaps := rfl
@[simp] theorem writeRawBit_env (i : Nat) (b : Bool) : (writeRawBit i b s).env = s.env := rfl
@[simp] theorem writeRawBit_draws (i : Nat) (b : Bool) : (writeRawBit i b s).draws = s.draws := rfl

/-! `writeHandler` -/

@[simp] theorem writeHandler_digit (h : HandlerId) : (writeHandler h s).digit = s.digit := rfl
@[simp] theorem writeHandler_led (h : HandlerId) : (writeHandler h s).led = s.led := rfl
@[simp] theorem writeHandler_raw (h : HandlerId) : (writeHandler h s).raw = s.raw := rfl
@[simp] theorem writeHandler_dbt (h : HandlerId) : (writeHandler h s).dbt = s.dbt := rfl
@[simp] theorem writeHandler_stable (h : HandlerId) : (writeHandler h s).stable = s.stable := rfl
@[simp] theorem writeHandler_lastStable (h : HandlerId) : (writeHandler h s).lastStable = s.lastStable := rfl
@[simp] theorem writeHandler_lastCombo (h : HandlerId) : (writeHandler h s).lastCombo = s.lastCombo := rfl
@[simp] theorem writeHandler_dblDeadline (h : HandlerId) : (writeHandler h s).dblDeadline = s.dblDeadline := rfl
@[simp] theorem writeHandler_rptDeadline (h : HandlerId) : (writeHandler h s).rptDeadline = s.rptDeadline := rfl
@[simp] theorem writeHandler_longPress (h : HandlerId) : (writeHandler h s).longPress = s.longPress := rfl
@[simp] theorem writeHandler_idx (h : HandlerId) : (writeHandler h s).idx = s.idx := rfl
@[simp] theorem writeHandler_handler (h : HandlerId) : (writeHandler h s).handler = h := rfl
@[simp] theorem writeHandler_extraCfg (h : HandlerId) : (writeHandler h s).extraCfg = s.extraCfg := rfl
@[simp] theorem writeHandler_extraPin (h : HandlerId) : (writeHandler h s).extraPin = s.extraPin := rfl
@[simp] theorem writeHandler_initialised (h : HandlerId) : (writeHandler h s).initialised = s.initialised := rfl
@[simp] theorem writeHandler_timerEnabled (h : HandlerId) : (writeHandler h s).timerEnabled = s.timerEnabled := rfl
@[simp] theorem writeHandler_refused (h : HandlerId) : (writeHandler h s).refused = s.refused := rfl
@[simp] theorem writeHandler_firstRefusal (h : HandlerId) : (writeHandler h s).firstRefusal = s.firstRefusal := rfl
@[simp] theorem writeHandler_trace (h : HandlerId) : (writeHandler h s).trace = s.trace := rfl
@[simp] theorem writeHandler_emits (h : HandlerId) : (writeHandler h s).emits = s.emits := rfl
@[simp] theorem writeHandler_inbox (h : HandlerId) : (writeHandler h s).inbox = s.inbox := rfl
@[simp] theorem writeHandler_gaps (h : HandlerId) : (writeHandler h s).gaps = s.gaps := rfl
@[simp] theorem writeHandler_env (h : HandlerId) : (writeHandler h s).env = s.env := rfl
@[simp] theorem writeHandler_draws (h : HandlerId) : (writeHandler h s).draws = s.draws := rfl

/-! `configureKey` -/

@[simp] theorem configureKey_digit (k : Fin NX) (pin : PinId) : (configureKey k pin s).digit = s.digit := rfl
@[simp] theorem configureKey_led (k : Fin NX) (pin : PinId) : (configureKey k pin s).led = s.led := rfl
@[simp] theorem configureKey_raw (k : Fin NX) (pin : PinId) : (configureKey k pin s).raw = s.raw := rfl
@[simp] theorem configureKey_dbt (k : Fin NX) (pin : PinId) : (configureKey k pin s).dbt = s.dbt := rfl
@[simp] theorem configureKey_stable (k : Fin NX) (pin : PinId) : (configureKey k pin s).stable = s.stable := rfl
@[simp] theorem configureKey_lastStable (k : Fin NX) (pin : PinId) :
    (configureKey k pin s).lastStable = s.lastStable := rfl
@[simp] theorem configureKey_lastCombo (k : Fin NX) (pin : PinId) :
    (configureKey k pin s).lastCombo = s.lastCombo := rfl
@[simp] theorem configureKey_dblDeadline (k : Fin NX) (pin : PinId) :
    (configureKey k pin s).dblDeadline = s.dblDeadline := rfl
@[simp] theorem configureKey_rptDeadline (k : Fin NX) (pin : PinId) :
    (configureKey k pin s).rptDeadline = s.rptDeadline := rfl
@[simp] theorem configureKey_longPress (k : Fin NX) (pin : PinId) :
    (configureKey k pin s).longPress = s.longPress := rfl
@[simp] theorem configureKey_idx (k : Fin NX) (pin : PinId) : (configureKey k pin s).idx = s.idx := rfl
@[simp] theorem configureKey_handler (k : Fin NX) (pin : PinId) : (configureKey k pin s).handler = s.handler := rfl
@[simp] theorem configureKey_extraCfg (k : Fin NX) (pin : PinId) :
    (configureKey k pin s).extraCfg = s.extraCfg.set k true := rfl
@[simp] theorem configureKey_extraPin (k : Fin NX) (pin : PinId) :
    (configureKey k pin s).extraPin = s.extraPin.set k pin := rfl
@[simp] theorem configureKey_initialised (k : Fin NX) (pin : PinId) :
    (configureKey k pin s).initialised = s.initialised := rfl
@[simp] theorem configureKey_timerEnabled (k : Fin NX) (pin : PinId) :
    (configureKey k pin s).timerEnabled = s.timerEnabled := rfl
@[simp] theorem configureKey_refused (k : Fin NX) (pin : PinId) : (configureKey k pin s).refused = s.refused := rfl
@[simp] theorem configureKey_firstRefusal (k : Fin NX) (pin : PinId) :
    (configureKey k pin s).firstRefusal = s.firstRefusal := rfl
@[simp] theorem configureKey_trace (k : Fin NX) (pin : PinId) : (configureKey k pin s).trace = s.trace := rfl
@[simp] theorem configureKey_emits (k : Fin NX) (pin : PinId) : (configureKey k pin s).emits = s.emits := rfl
@[simp] theorem configureKey_inbox (k : Fin NX) (pin : PinId) : (configureKey k pin s).inbox = s.inbox := rfl
@[simp] theorem configureKey_gaps (k : Fin NX) (pin : PinId) : (configureKey k pin s).gaps = s.gaps := rfl
@[simp] theorem configureKey_env (k : Fin NX) (pin : PinId) : (configureKey k pin s).env = s.env := rfl
@[simp] theorem configureKey_draws (k : Fin NX) (pin : PinId) : (configureKey k pin s).draws = s.draws := rfl

/-! `refuse` -/

@[simp] theorem refuse_digit (r : Reason) (c : Word) : (refuse r c s).digit = s.digit := rfl
@[simp] theorem refuse_led (r : Reason) (c : Word) : (refuse r c s).led = s.led := rfl
@[simp] theorem refuse_raw (r : Reason) (c : Word) : (refuse r c s).raw = s.raw := rfl
@[simp] theorem refuse_dbt (r : Reason) (c : Word) : (refuse r c s).dbt = s.dbt := rfl
@[simp] theorem refuse_stable (r : Reason) (c : Word) : (refuse r c s).stable = s.stable := rfl
@[simp] theorem refuse_lastStable (r : Reason) (c : Word) : (refuse r c s).lastStable = s.lastStable := rfl
@[simp] theorem refuse_lastCombo (r : Reason) (c : Word) : (refuse r c s).lastCombo = s.lastCombo := rfl
@[simp] theorem refuse_dblDeadline (r : Reason) (c : Word) : (refuse r c s).dblDeadline = s.dblDeadline := rfl
@[simp] theorem refuse_rptDeadline (r : Reason) (c : Word) : (refuse r c s).rptDeadline = s.rptDeadline := rfl
@[simp] theorem refuse_longPress (r : Reason) (c : Word) : (refuse r c s).longPress = s.longPress := rfl
@[simp] theorem refuse_idx (r : Reason) (c : Word) : (refuse r c s).idx = s.idx := rfl
@[simp] theorem refuse_handler (r : Reason) (c : Word) : (refuse r c s).handler = s.handler := rfl
@[simp] theorem refuse_extraCfg (r : Reason) (c : Word) : (refuse r c s).extraCfg = s.extraCfg := rfl
@[simp] theorem refuse_extraPin (r : Reason) (c : Word) : (refuse r c s).extraPin = s.extraPin := rfl
@[simp] theorem refuse_initialised (r : Reason) (c : Word) : (refuse r c s).initialised = s.initialised := rfl
@[simp] theorem refuse_timerEnabled (r : Reason) (c : Word) : (refuse r c s).timerEnabled = s.timerEnabled := rfl
@[simp] theorem refuse_refused (r : Reason) (c : Word) : (refuse r c s).refused = true := rfl
@[simp] theorem refuse_trace (r : Reason) (c : Word) : (refuse r c s).trace = s.trace := rfl
@[simp] theorem refuse_emits (r : Reason) (c : Word) : (refuse r c s).emits = s.emits := rfl
@[simp] theorem refuse_inbox (r : Reason) (c : Word) : (refuse r c s).inbox = s.inbox := rfl
@[simp] theorem refuse_gaps (r : Reason) (c : Word) : (refuse r c s).gaps = s.gaps := rfl
@[simp] theorem refuse_env (r : Reason) (c : Word) : (refuse r c s).env = s.env := rfl
@[simp] theorem refuse_draws (r : Reason) (c : Word) : (refuse r c s).draws = s.draws := rfl

/-! `emit` -/

@[simp] theorem emit_digit (w : EventWord) : (emit w s).digit = s.digit := rfl
@[simp] theorem emit_led (w : EventWord) : (emit w s).led = s.led := rfl
@[simp] theorem emit_raw (w : EventWord) : (emit w s).raw = s.raw := rfl
@[simp] theorem emit_dbt (w : EventWord) : (emit w s).dbt = s.dbt := rfl
@[simp] theorem emit_stable (w : EventWord) : (emit w s).stable = s.stable := rfl
@[simp] theorem emit_lastStable (w : EventWord) : (emit w s).lastStable = s.lastStable := rfl
@[simp] theorem emit_lastCombo (w : EventWord) : (emit w s).lastCombo = s.lastCombo := rfl
@[simp] theorem emit_dblDeadline (w : EventWord) : (emit w s).dblDeadline = s.dblDeadline := rfl
@[simp] theorem emit_rptDeadline (w : EventWord) : (emit w s).rptDeadline = s.rptDeadline := rfl
@[simp] theorem emit_longPress (w : EventWord) : (emit w s).longPress = s.longPress := rfl
@[simp] theorem emit_idx (w : EventWord) : (emit w s).idx = s.idx := rfl
@[simp] theorem emit_handler (w : EventWord) : (emit w s).handler = s.handler := rfl
@[simp] theorem emit_extraCfg (w : EventWord) : (emit w s).extraCfg = s.extraCfg := rfl
@[simp] theorem emit_extraPin (w : EventWord) : (emit w s).extraPin = s.extraPin := rfl
@[simp] theorem emit_initialised (w : EventWord) : (emit w s).initialised = s.initialised := rfl
@[simp] theorem emit_timerEnabled (w : EventWord) : (emit w s).timerEnabled = s.timerEnabled := rfl
@[simp] theorem emit_refused (w : EventWord) : (emit w s).refused = s.refused := rfl
@[simp] theorem emit_firstRefusal (w : EventWord) : (emit w s).firstRefusal = s.firstRefusal := rfl
@[simp] theorem emit_trace (w : EventWord) : (emit w s).trace = s.trace := rfl
@[simp] theorem emit_emits (w : EventWord) : (emit w s).emits = s.emits ++ [⟨s.handler, w⟩] := rfl
@[simp] theorem emit_inbox (w : EventWord) : (emit w s).inbox = s.inbox := rfl
@[simp] theorem emit_gaps (w : EventWord) : (emit w s).gaps = s.gaps := rfl
@[simp] theorem emit_env (w : EventWord) : (emit w s).env = s.env := rfl
@[simp] theorem emit_draws (w : EventWord) : (emit w s).draws = s.draws := rfl

/-! `clearLongPress` -/

@[simp] theorem clearLongPress_digit : (clearLongPress s).digit = s.digit := rfl
@[simp] theorem clearLongPress_led : (clearLongPress s).led = s.led := rfl
@[simp] theorem clearLongPress_raw : (clearLongPress s).raw = s.raw := rfl
@[simp] theorem clearLongPress_dbt : (clearLongPress s).dbt = s.dbt := rfl
@[simp] theorem clearLongPress_stable : (clearLongPress s).stable = s.stable := rfl
@[simp] theorem clearLongPress_lastStable : (clearLongPress s).lastStable = s.lastStable := rfl
@[simp] theorem clearLongPress_lastCombo : (clearLongPress s).lastCombo = s.lastCombo := rfl
@[simp] theorem clearLongPress_dblDeadline : (clearLongPress s).dblDeadline = s.dblDeadline := rfl
@[simp] theorem clearLongPress_rptDeadline : (clearLongPress s).rptDeadline = s.rptDeadline := rfl
@[simp] theorem clearLongPress_longPress : (clearLongPress s).longPress = false := rfl
@[simp] theorem clearLongPress_idx : (clearLongPress s).idx = s.idx := rfl
@[simp] theorem clearLongPress_handler : (clearLongPress s).handler = s.handler := rfl
@[simp] theorem clearLongPress_extraCfg : (clearLongPress s).extraCfg = s.extraCfg := rfl
@[simp] theorem clearLongPress_extraPin : (clearLongPress s).extraPin = s.extraPin := rfl
@[simp] theorem clearLongPress_initialised : (clearLongPress s).initialised = s.initialised := rfl
@[simp] theorem clearLongPress_timerEnabled : (clearLongPress s).timerEnabled = s.timerEnabled := rfl
@[simp] theorem clearLongPress_refused : (clearLongPress s).refused = s.refused := rfl
@[simp] theorem clearLongPress_firstRefusal : (clearLongPress s).firstRefusal = s.firstRefusal := rfl
@[simp] theorem clearLongPress_trace : (clearLongPress s).trace = s.trace := rfl
@[simp] theorem clearLongPress_emits : (clearLongPress s).emits = s.emits := rfl
@[simp] theorem clearLongPress_inbox : (clearLongPress s).inbox = s.inbox := rfl
@[simp] theorem clearLongPress_gaps : (clearLongPress s).gaps = s.gaps := rfl
@[simp] theorem clearLongPress_env : (clearLongPress s).env = s.env := rfl
@[simp] theorem clearLongPress_draws : (clearLongPress s).draws = s.draws := rfl

/-! `setLongPress` -/

@[simp] theorem setLongPress_digit : (setLongPress s).digit = s.digit := rfl
@[simp] theorem setLongPress_led : (setLongPress s).led = s.led := rfl
@[simp] theorem setLongPress_raw : (setLongPress s).raw = s.raw := rfl
@[simp] theorem setLongPress_dbt : (setLongPress s).dbt = s.dbt := rfl
@[simp] theorem setLongPress_stable : (setLongPress s).stable = s.stable := rfl
@[simp] theorem setLongPress_lastStable : (setLongPress s).lastStable = s.lastStable := rfl
@[simp] theorem setLongPress_lastCombo : (setLongPress s).lastCombo = s.lastCombo := rfl
@[simp] theorem setLongPress_dblDeadline : (setLongPress s).dblDeadline = s.dblDeadline := rfl
@[simp] theorem setLongPress_rptDeadline : (setLongPress s).rptDeadline = s.rptDeadline := rfl
@[simp] theorem setLongPress_longPress : (setLongPress s).longPress = true := rfl
@[simp] theorem setLongPress_idx : (setLongPress s).idx = s.idx := rfl
@[simp] theorem setLongPress_handler : (setLongPress s).handler = s.handler := rfl
@[simp] theorem setLongPress_extraCfg : (setLongPress s).extraCfg = s.extraCfg := rfl
@[simp] theorem setLongPress_extraPin : (setLongPress s).extraPin = s.extraPin := rfl
@[simp] theorem setLongPress_initialised : (setLongPress s).initialised = s.initialised := rfl
@[simp] theorem setLongPress_timerEnabled : (setLongPress s).timerEnabled = s.timerEnabled := rfl
@[simp] theorem setLongPress_refused : (setLongPress s).refused = s.refused := rfl
@[simp] theorem setLongPress_firstRefusal : (setLongPress s).firstRefusal = s.firstRefusal := rfl
@[simp] theorem setLongPress_trace : (setLongPress s).trace = s.trace := rfl
@[simp] theorem setLongPress_emits : (setLongPress s).emits = s.emits := rfl
@[simp] theorem setLongPress_inbox : (setLongPress s).inbox = s.inbox := rfl
@[simp] theorem setLongPress_gaps : (setLongPress s).gaps = s.gaps := rfl
@[simp] theorem setLongPress_env : (setLongPress s).env = s.env := rfl
@[simp] theorem setLongPress_draws : (setLongPress s).draws = s.draws := rfl

/-! `accept` -/

@[simp] theorem accept_digit (a : Arrival) (rest : List Arrival) : (accept a rest s).digit = s.digit := rfl
@[simp] theorem accept_led (a : Arrival) (rest : List Arrival) : (accept a rest s).led = s.led := rfl
@[simp] theorem accept_raw (a : Arrival) (rest : List Arrival) : (accept a rest s).raw = s.raw := rfl
@[simp] theorem accept_dbt (a : Arrival) (rest : List Arrival) : (accept a rest s).dbt = s.dbt := rfl
@[simp] theorem accept_stable (a : Arrival) (rest : List Arrival) : (accept a rest s).stable = s.stable := rfl
@[simp] theorem accept_lastStable (a : Arrival) (rest : List Arrival) :
    (accept a rest s).lastStable = s.lastStable := rfl
@[simp] theorem accept_lastCombo (a : Arrival) (rest : List Arrival) : (accept a rest s).lastCombo = s.lastCombo := rfl
@[simp] theorem accept_dblDeadline (a : Arrival) (rest : List Arrival) :
    (accept a rest s).dblDeadline = s.dblDeadline := rfl
@[simp] theorem accept_rptDeadline (a : Arrival) (rest : List Arrival) :
    (accept a rest s).rptDeadline = s.rptDeadline := rfl
@[simp] theorem accept_longPress (a : Arrival) (rest : List Arrival) : (accept a rest s).longPress = s.longPress := rfl
@[simp] theorem accept_idx (a : Arrival) (rest : List Arrival) : (accept a rest s).idx = s.idx := rfl
@[simp] theorem accept_handler (a : Arrival) (rest : List Arrival) : (accept a rest s).handler = s.handler := rfl
@[simp] theorem accept_extraCfg (a : Arrival) (rest : List Arrival) : (accept a rest s).extraCfg = s.extraCfg := rfl
@[simp] theorem accept_extraPin (a : Arrival) (rest : List Arrival) : (accept a rest s).extraPin = s.extraPin := rfl
@[simp] theorem accept_initialised (a : Arrival) (rest : List Arrival) :
    (accept a rest s).initialised = s.initialised := rfl
@[simp] theorem accept_timerEnabled (a : Arrival) (rest : List Arrival) :
    (accept a rest s).timerEnabled = s.timerEnabled := rfl
@[simp] theorem accept_refused (a : Arrival) (rest : List Arrival) : (accept a rest s).refused = s.refused := rfl
@[simp] theorem accept_firstRefusal (a : Arrival) (rest : List Arrival) :
    (accept a rest s).firstRefusal = s.firstRefusal := rfl
@[simp] theorem accept_trace (a : Arrival) (rest : List Arrival) : (accept a rest s).trace = s.trace := rfl
@[simp] theorem accept_emits (a : Arrival) (rest : List Arrival) : (accept a rest s).emits = s.emits := rfl
@[simp] theorem accept_inbox (a : Arrival) (rest : List Arrival) : (accept a rest s).inbox = rest := rfl
@[simp] theorem accept_gaps (a : Arrival) (rest : List Arrival) : (accept a rest s).gaps = a.gaps := rfl
@[simp] theorem accept_env (a : Arrival) (rest : List Arrival) : (accept a rest s).env = s.env := rfl
@[simp] theorem accept_draws (a : Arrival) (rest : List Arrival) : (accept a rest s).draws = s.draws := rfl

/-- The first refusal is kept (60_exceptions.md R223). -/
theorem refuse_firstRefusal_some {x : RefusalRecord} (r : Reason) (c : Word) (h : s.firstRefusal = some x) :
    (refuse r c s).firstRefusal = some x := by
  simp [refuse, h]

theorem refuse_firstRefusal_none (r : Reason) (c : Word) (h : s.firstRefusal = none) :
    (refuse r c s).firstRefusal = some ⟨r, c⟩ := by
  simp [refuse, h]

@[simp] theorem refuse_firstRefusal_isSome (r : Reason) (c : Word) :
    (refuse r c s).firstRefusal.isSome = true := by
  cases h : s.firstRefusal <;> simp [refuse, h]

/-! What a pin read answers. -/

/-- The next listed answer is the level read (20_memory.md R56). -/
theorem envAnswer_cons (p : PinId) {l : Bool} {ls : List Bool} (h : s.env = l :: ls) : envAnswer p s = l := by
  simp [envAnswer, h]

/-- With no answer listed the level is the free value (20_memory.md R56). -/
theorem envAnswer_nil (p : PinId) (h : s.env = []) : envAnswer p s = Config.envLevel s.draws p := by
  simp [envAnswer, h]

end Sys2Proof.Machine
end

