-- ==== Sys2Proof/Laws/Refresh.lean ====
section
/-! SUPPORT. What TICK, TICKs in a row and a boundary can do. -/

namespace Sys2Proof.Machine

variable {W CW ND NS NX NB : Nat}

/-- The pin events of one TICK after its read: the byte b at slot i (40_refresh.md R103, R105, R106). -/
def tickWrites (P : Sized.Params W CW ND NS NX NB) (i : Fin NS) (b : Byte) :
    List PinEvent := digitsOff P ++ (shiftOut P b ++ enableSlot P i)

theorem length_tickWrites (P : Sized.Params W CW ND NS NX NB) (i : Fin NS) (b : Byte) :
    (tickWrites P i b).length = ND + 26 + if i.val < ND then 1 else 0 := by
  by_cases h : i.val < ND <;> simp [tickWrites, digitsOff, shiftOut, shiftBit, clockPulse, enableSlot, h]

/-- The slot after i on this hardware. -/
@[simp] theorem nextSlot_five (i : Fin 5) : nextSlot i = i + 1 := by
  revert i; decide

/-- TICK, once and for all: raw bit idx, idx, the trace and ENV's draw; nothing else (40_refresh.md R108). -/
theorem tick_eq (P : Sized.Params W CW ND NS NX NB) (s : Sized.State W CW ND NS NX NB) :
    tick P s = { s with
      raw := setBit s.raw s.idx.val (envAnswer P.pinSwRead s == P.swPressedLevel)
      idx := nextSlot s.idx
      env := s.env.tail
      draws := s.draws + 1
      trace := s.trace ++ (.read P.pinSwRead (envAnswer P.pinSwRead s) :: tickWrites P s.idx (slotByte P s.idx s)) } := by
  have hb : ∀ es t, slotByte P s.idx (drive es t) = slotByte P s.idx t := by
    intro es t; rfl
  simp [tick, drive, readLevel, writeRawBit, tickWrites, slotByte, List.append_assoc]

theorem TickFrame.refl (s : Sized.State W CW ND NS NX NB) : TickFrame s s := ⟨rfl, fun _ _ => rfl, List.prefix_rfl⟩

theorem TickFrame.trans {s t u : Sized.State W CW ND NS NX NB} (h : TickFrame s t) (k : TickFrame t u) :
    TickFrame s u := by
  refine ⟨?_, fun j hj => (k.high j hj).trans (h.high j hj), h.grows.trans k.grows⟩
  have h1 := h.rest
  have h2 := k.rest
  rw [h1] at h2
  simpa using h2

theorem tick_frame (P : Sized.Params W CW ND NS NX NB) (s : Sized.State W CW ND NS NX NB) : TickFrame s (tick P s) := by
  rw [tick_eq]
  refine ⟨rfl, fun j hj => ?_, List.prefix_append _ _⟩
  have hi := s.idx.isLt
  exact getLsbD_setBit_of_ne _ _ _ _ (by omega)

theorem TickFrame.setGaps (s : Sized.State W CW ND NS NX NB) (g : List Nat) : TickFrame s { s with gaps := g } :=
  ⟨rfl, fun _ _ => rfl, List.prefix_rfl⟩

theorem ticks_frame (P : Sized.Params W CW ND NS NX NB) (n : Nat) (s : Sized.State W CW ND NS NX NB) :
    TickFrame s (ticks P n s) := by
  induction n generalizing s with
  | zero => exact TickFrame.refl s
  | succ n ih =>
    unfold ticks
    split
    · exact (tick_frame P s).trans (ih _)
    · exact ih _

/-- What a boundary of a command can do (20_memory.md R57; 60_exceptions.md R228). -/
theorem gap_frame (P : Sized.Params W CW ND NS NX NB) (s : Sized.State W CW ND NS NX NB) : TickFrame s (gap P s) := by
  unfold gap
  split
  · exact TickFrame.refl s
  · exact (TickFrame.setGaps s _).trans (ticks_frame P _ _)

@[simp] theorem gap_nil (P : Sized.Params W CW ND NS NX NB) (s : Sized.State W CW ND NS NX NB) (h : s.gaps = []) :
    gap P s = s := by
  simp [gap, h]

theorem gap_cons (P : Sized.Params W CW ND NS NX NB) (s : Sized.State W CW ND NS NX NB) {n : Nat} {rest : List Nat}
    (h : s.gaps = n :: rest) :
    gap P s = ticks P n { s with gaps := rest } := by
  simp [gap, h]

/-- One TICK at a boundary while TIMER runs. -/
theorem ticks_one (P : Sized.Params W CW ND NS NX NB) (s : Sized.State W CW ND NS NX NB) (h : s.timerEnabled = true) :
    ticks P 1 s = tick P s := by
  simp [ticks, h]

/-- The slot counter after n TICKs (40_refresh.md R107, R110). -/
theorem ticks_idx (P : Sized.Params W CW ND NS NX NB) (n : Nat) (s : Sized.State W CW ND NS NX NB)
    (h : s.timerEnabled = true) :
    (ticks P n s).idx.val = (s.idx.val + n) % NS := by
  induction n generalizing s with
  | zero => simp [ticks, Nat.mod_eq_of_lt s.idx.isLt]
  | succ n ih =>
    have ht : (tick P s).timerEnabled = true := by rw [tick_eq]; exact h
    have hi : (tick P s).idx.val = (s.idx.val + 1) % NS := by rw [tick_eq]; rfl
    simp only [ticks, h, if_true]
    rw [ih _ ht, hi, Nat.mod_add_mod]
    congr 1
    omega

@[simp] theorem tick_gaps (P : Sized.Params W CW ND NS NX NB) (s : Sized.State W CW ND NS NX NB) :
    (tick P s).gaps = s.gaps := by rw [tick_eq]

/-- TICKs leave the boundary list alone. -/
@[simp] theorem ticks_gaps (P : Sized.Params W CW ND NS NX NB) (n : Nat) (s : Sized.State W CW ND NS NX NB) :
    (ticks P n s).gaps = s.gaps := by
  induction n generalizing s with
  | zero => rfl
  | succ n ih =>
    unfold ticks
    rw [ih]
    split
    · exact tick_gaps P s
    · rfl

@[simp] theorem ticks_zero (P : Sized.Params W CW ND NS NX NB) (s : Sized.State W CW ND NS NX NB) :
    ticks P 0 s = s := rfl

/-- TICKs neither read nor write what HOST writes into the digits afterwards. -/
theorem TickFrame.withDigit {s t : Sized.State W CW ND NS NX NB} (h : TickFrame s t) (d : Vector Byte ND) :
    TickFrame { s with digit := d } { t with digit := d } :=
  ⟨by rw [h.rest], h.high, h.grows⟩

/-- Fields no TICK touches, one lemma each. -/
theorem TickFrame.digit {s t : Sized.State W CW ND NS NX NB} (h : TickFrame s t) : t.digit = s.digit := by rw [h.rest]

theorem TickFrame.led {s t : Sized.State W CW ND NS NX NB} (h : TickFrame s t) : t.led = s.led := by rw [h.rest]

theorem TickFrame.initialised {s t : Sized.State W CW ND NS NX NB} (h : TickFrame s t) :
    t.initialised = s.initialised := by rw [h.rest]

theorem TickFrame.timerEnabled {s t : Sized.State W CW ND NS NX NB} (h : TickFrame s t) :
    t.timerEnabled = s.timerEnabled := by rw [h.rest]

theorem TickFrame.extraCfg {s t : Sized.State W CW ND NS NX NB} (h : TickFrame s t) :
    t.extraCfg = s.extraCfg := by rw [h.rest]

theorem TickFrame.extraPin {s t : Sized.State W CW ND NS NX NB} (h : TickFrame s t) :
    t.extraPin = s.extraPin := by rw [h.rest]

theorem TickFrame.stable {s t : Sized.State W CW ND NS NX NB} (h : TickFrame s t) :
    t.stable = s.stable := by rw [h.rest]

theorem TickFrame.dbt {s t : Sized.State W CW ND NS NX NB} (h : TickFrame s t) : t.dbt = s.dbt := by rw [h.rest]

theorem TickFrame.emits {s t : Sized.State W CW ND NS NX NB} (h : TickFrame s t) : t.emits = s.emits := by rw [h.rest]

theorem TickFrame.handler {s t : Sized.State W CW ND NS NX NB} (h : TickFrame s t) :
    t.handler = s.handler := by rw [h.rest]

end Sys2Proof.Machine
end

