-- ==== Sys2Proof/Laws/Interleave.lean ====
section
/-! SUPPORT. What a command's atomic steps do when no TICK falls inside it, and which part of the state they own when
TICKs do. -/

namespace Sys2Proof.Machine

variable {W CW ND NS NX NB : Nat}

/-- With no TICK inside, the atomic steps simply follow each other, if none of them makes a boundary entry. -/
theorem inOrder_quiet (P : Sized.Params W CW ND NS NX NB)
    (fs : List (Sized.State W CW ND NS NX NB → Sized.State W CW ND NS NX NB))
    (hg : ∀ f ∈ fs, ∀ s, (f s).gaps = s.gaps) (s : Sized.State W CW ND NS NX NB)
    (h : s.gaps = []) : inOrder P fs s = fs.foldl (fun t f => f t) s := by
  induction fs generalizing s with
  | nil => rfl
  | cons a rest ih =>
    cases rest with
    | nil => rfl
    | cons b rest =>
      have ha : (a s).gaps = [] := by rw [hg a (by simp), h]
      rw [inOrder, gap_nil P _ ha, List.foldl_cons]
      exact ih (fun f hf => hg f (by simp [hf])) (a s) ha

/-- Digit writes with TICKs between them leave the digits the writes alone would, and otherwise what TICKs leave. -/
theorem writeDigits_frame (P : Sized.Params W CW ND NS NX NB) (ps : List (Fin ND)) (f : Fin ND → Byte)
    (s : Sized.State W CW ND NS NX NB) :
    TickFrame { s with digit := ps.foldl (fun d (p : Fin ND) => d.set p.val (f p)) s.digit } (writeDigits P ps f s) := by
  unfold writeDigits
  induction ps generalizing s with
  | nil => exact TickFrame.refl s
  | cons p rest ih =>
    cases rest with
    | nil => exact TickFrame.refl _
    | cons q rest =>
      have g := gap_frame P (writeDigit p (f p) s)
      have k := ih (gap P (writeDigit p (f p) s))
      rw [g.digit] at k
      exact (g.withDigit _).trans k

/-! The sizes of this hardware. -/

theorem digitsOff_eq (P : Params) : digitsOff P = [.write P.pinDigit[0] (offLevel P), .write P.pinDigit[1] (offLevel P),
    .write P.pinDigit[2] (offLevel P), .write P.pinDigit[3] (offLevel P)] := rfl

theorem showWith_eq (P : Params) (d0 d1 d2 d3 : Byte) : showWith P d0 d1 d2 d3 =
    inOrder P [writeDigit 0 d0, writeDigit 1 d1, writeDigit 2 d2, writeDigit 3 d3] := rfl

theorem clearWith_eq (P : Params) : clearWith P =
    inOrder P [writeDigit 0 0, writeDigit 1 0, writeDigit 2 0, writeDigit 3 0] := rfl

end Sys2Proof.Machine
end

