-- ==== Sys2Proof/Laws/Operands.lean ====
section
/-! SUPPORT. Small lemmas of the operand and flag computations. -/

namespace Sys2Proof.Machine

variable {W CW ND NS NX NB : Nat}

@[simp] theorem keyIndex_ofNat (k : Fin 3) : keyIndex (BitVec.ofNat 2 k.val) = some k := by
  revert k; decide

/-- Only key 3 names no extra key of this hardware (30_encoding.md R75, R85). -/
theorem keyIndex_eq_none (key : BitVec 2) : (keyIndex key : Option (Fin 3)) = none ↔ key = 3 := by
  revert key; decide

/-- This hardware's divisors (41_display.md R138, R141). -/
theorem divisor_four : (List.finRange 4).map divisor = [1000, 100, 10, 1] := by decide

/-- SHOWNUM's positions (41_display.md R138, R139, R142). -/
theorem mem_shownPositions (start : BitVec 8) (p : Fin ND) :
    p ∈ (shownPositions start : List (Fin ND)) ↔ (start.toNat < ND → start.toNat ≤ p.val) := by
  unfold shownPositions
  split
  · rename_i h
    simp [h]
  · rename_i h
    simp [h]

@[simp] theorem reached_eq (P : Sized.Params W CW ND NS NX NB) (a b : BitVec W) : reached P a b = !before P a b := rfl

/-- A locked lane only counts down (42_classifier.md R165). -/
theorem laneStep_locked (P : Sized.Params W CW ND NS NX NB) (d : BitVec CW) (r st : Bool) (h : d ≠ 0) :
    laneStep P d r st = ⟨d - 1, st, false⟩ :=
  if_pos h

/-- An open lane takes the raw bit; it reloads its counter exactly when it flips (42_classifier.md R164). -/
theorem laneStep_open (P : Sized.Params W CW ND NS NX NB) (r st : Bool) :
    laneStep P 0 r st = ⟨if r = st then 0 else P.debounce, r, r && !st⟩ := by
  cases r <;> cases st <;> simp [laneStep]

end Sys2Proof.Machine
end

