-- ==== Sys2Proof/Laws/Classifier.lean ====
section
/-! SUPPORT. What each part of POLL can do: the lanes, the branches, the delivery, the folds. -/

namespace Sys2Proof.Machine

variable {W CW ND NS NX NB : Nat}

/-! The lanes. -/

theorem debounceLane_eq (P : Sized.Params W CW ND NS NX NB) (r : Byte) (acc : Sized.State W CW ND NS NX NB × Bool)
    (j : Fin NB) :
    debounceLane P r acc j =
      ({ acc.1 with dbt := acc.1.dbt.set j (laneAt P r acc.1 j).dbt
                    stable := setBit acc.1.stable j (laneAt P r acc.1 j).stable },
        acc.2 || (laneAt P r acc.1 j).newPress) := rfl

/-- One lane leaves the others' counter and stable bit alone (42_classifier.md R166 item 4). -/
theorem laneAt_debounceLane_of_ne (P : Sized.Params W CW ND NS NX NB) (r : Byte)
    (acc : Sized.State W CW ND NS NX NB × Bool) {j k : Fin NB} (h : k ≠ j) :
    laneAt P r (debounceLane P r acc j).1 k = laneAt P r acc.1 k := by
  have hv : (j : Nat) ≠ k := fun e => h (Fin.ext e.symm)
  have hd : (acc.1.dbt.set j (laneAt P r acc.1 j).dbt)[k] = acc.1.dbt[k] :=
    Vector.getElem_set_ne j.isLt k.isLt hv
  simp only [laneAt, debounceLane_eq] at hd ⊢
  rw [hd, getLsbD_setBit_of_ne _ _ _ _ (fun e => h (Fin.ext e))]

/-- What a run over some of the lanes leaves. -/
structure LanesDone (P : Sized.Params W CW ND NS NX NB) (r : Byte) (ls : List (Fin NB))
    (acc acc' : Sized.State W CW ND NS NX NB × Bool) : Prop where
  rest : acc'.1 = { acc.1 with dbt := acc'.1.dbt, stable := acc'.1.stable }
  inside : ∀ j ∈ ls, acc'.1.dbt[j] = (laneAt P r acc.1 j).dbt ∧ acc'.1.stable.getLsbD j = (laneAt P r acc.1 j).stable
  outside : ∀ j : Fin NB, j ∉ ls → acc'.1.dbt[j] = acc.1.dbt[j] ∧ acc'.1.stable.getLsbD j = acc.1.stable.getLsbD j
  above : ∀ n, NB ≤ n → acc'.1.stable.getLsbD n = acc.1.stable.getLsbD n
  press : acc'.2 = (acc.2 || ls.any (fun j => (laneAt P r acc.1 j).newPress))

theorem lanesDone (hNB : NB ≤ 8) (P : Sized.Params W CW ND NS NX NB) (r : Byte) (ls : List (Fin NB)) (hn : ls.Nodup)
    (acc : Sized.State W CW ND NS NX NB × Bool) :
    LanesDone P r ls acc (ls.foldl (debounceLane P r) acc) := by
  induction ls generalizing acc with
  | nil => exact ⟨rfl, by simp, fun _ _ => ⟨rfl, rfl⟩, fun _ _ => rfl, by simp⟩
  | cons j ls ih =>
    obtain ⟨hj, hn⟩ := List.nodup_cons.mp hn
    have ih := ih hn (debounceLane P r acc j)
    have own : ∀ k : Fin NB, (debounceLane P r acc j).1.dbt[k] = (if k = j then (laneAt P r acc.1 j).dbt else acc.1.dbt[k])
        ∧ (debounceLane P r acc j).1.stable.getLsbD k
          = (if k = j then (laneAt P r acc.1 j).stable else acc.1.stable.getLsbD k) := by
      intro k
      have hs := getLsbD_setBit acc.1.stable j (laneAt P r acc.1 j).stable (by omega : (j : Nat) < 8) k
      simp only [debounceLane_eq, hs]
      by_cases e : k = j
      · subst e
        simp
      · have hv : (j : Nat) ≠ k := fun h => e (Fin.ext h.symm)
        rw [if_neg e, if_neg e, if_neg (fun h => hv h.symm)]
        exact ⟨Vector.getElem_set_ne j.isLt k.isLt hv, rfl⟩
    refine ⟨?_, ?_, ?_, ?_, ?_⟩
    · rw [List.foldl_cons, ih.rest]
      rfl
    · intro k hk
      rw [List.foldl_cons]
      rcases List.mem_cons.mp hk with rfl | hk
      · have o := ih.outside k hj
        have w := own k
        rw [if_pos rfl, if_pos rfl] at w
        exact ⟨o.1.trans w.1, o.2.trans w.2⟩
      · have ne : k ≠ j := fun e => hj (e ▸ hk)
        have i := ih.inside k hk
        rw [laneAt_debounceLane_of_ne P r acc ne] at i
        exact i
    · intro k hk
      rw [List.foldl_cons]
      have ne : k ≠ j := fun e => hk (by simp [e])
      have o := ih.outside k (fun h => hk (by simp [h]))
      have w := own k
      rw [if_neg ne, if_neg ne] at w
      exact ⟨o.1.trans w.1, o.2.trans w.2⟩
    · intro n hn6
      rw [List.foldl_cons, ih.above n hn6, debounceLane_eq]
      simp only
      exact getLsbD_setBit_of_ne _ _ _ _ (by omega)
    · rw [List.foldl_cons, ih.press, List.any_cons]
      have e : ls.any (fun k => (laneAt P r (debounceLane P r acc j).1 k).newPress)
          = ls.any (fun k => (laneAt P r acc.1 k).newPress) := by
        rw [Bool.eq_iff_iff, List.any_eq_true, List.any_eq_true]
        refine exists_congr fun k => and_congr_right fun hk => ?_
        have ne : k ≠ j := fun e => hj (e ▸ hk)
        rw [laneAt_debounceLane_of_ne P r acc ne]
      rw [e, debounceLane_eq, Bool.or_assoc]

/-- Step 2, once and for all: every lane by its own rule, nothing else (42_classifier.md R163, R164). -/
theorem debounce_done (hNB : NB ≤ 8) (P : Sized.Params W CW ND NS NX NB) (r : Byte) (s : Sized.State W CW ND NS NX NB) :
    LanesDone P r (List.finRange NB) (s, false) (debounce P r s) :=
  lanesDone hNB P r _ (List.nodup_finRange NB) _

theorem debounce_lane (hNB : NB ≤ 8) (P : Sized.Params W CW ND NS NX NB) (r : Byte) (s : Sized.State W CW ND NS NX NB)
    (j : Fin NB) :
    (debounce P r s).1.dbt[j] = (laneAt P r s j).dbt ∧ (debounce P r s).1.stable.getLsbD j = (laneAt P r s j).stable :=
  (debounce_done hNB P r s).inside j (List.mem_finRange j)

theorem debounce_above (hNB : NB ≤ 8) (P : Sized.Params W CW ND NS NX NB) (r : Byte)
    (s : Sized.State W CW ND NS NX NB) (n : Nat) (h : NB ≤ n) :
    (debounce P r s).1.stable.getLsbD n = s.stable.getLsbD n :=
  (debounce_done hNB P r s).above n h

/-- `newKeyPress` after step 2: some lane adopted a press (42_classifier.md R164). -/
theorem debounce_press (hNB : NB ≤ 8) (P : Sized.Params W CW ND NS NX NB) (r : Byte)
    (s : Sized.State W CW ND NS NX NB) :
    (debounce P r s).2 = true ↔ ∃ j : Fin NB, (laneAt P r s j).newPress = true := by
  rw [(debounce_done hNB P r s).press, Bool.false_or, List.any_eq_true]
  constructor
  · rintro ⟨j, -, h⟩; exact ⟨j, h⟩
  · rintro ⟨j, h⟩; exact ⟨j, List.mem_finRange j, h⟩

theorem debounce_rest (hNB : NB ≤ 8) (P : Sized.Params W CW ND NS NX NB) (r : Byte) (s : Sized.State W CW ND NS NX NB) :
    (debounce P r s).1 = { s with dbt := (debounce P r s).1.dbt, stable := (debounce P r s).1.stable } :=
  (debounce_done hNB P r s).rest

/-! The branches and the delivery. -/

/-- Classification writes the deadlines, the combination and `longPress`, nothing else (42_classifier.md R167-R173). -/
theorem classify_rest (P : Sized.Params W CW ND NS NX NB) (now : BitVec W) (np : Bool)
    (s : Sized.State W CW ND NS NX NB) :
    (classify P now np s).1 = { s with
      lastCombo := (classify P now np s).1.lastCombo
      dblDeadline := (classify P now np s).1.dblDeadline
      rptDeadline := (classify P now np s).1.rptDeadline
      longPress := (classify P now np s).1.longPress } := by
  unfold classify
  split
  · rfl
  · split
    · unfold changeBranch
      dsimp only
      split <;> rfl
    · unfold heldBranch
      split <;> rfl

/-- The three branches, in the order the rule tests them (42_classifier.md R167). -/
theorem classify_cases (P : Sized.Params W CW ND NS NX NB) (now : BitVec W) (np : Bool)
    (s : Sized.State W CW ND NS NX NB) :
    (s.stable = 0 ∧ classify P now np s = (zeroBranch s, none)) ∨
    (s.stable ≠ 0 ∧ s.stable ≠ s.lastStable ∧ classify P now np s = changeBranch P now np s) ∨
    (s.stable ≠ 0 ∧ s.stable = s.lastStable ∧ classify P now np s = heldBranch P now s) := by
  unfold classify
  by_cases h0 : s.stable = 0
  · exact .inl ⟨h0, if_pos h0⟩
  · rw [if_neg h0]
    by_cases h1 : s.stable = s.lastStable
    · exact .inr (.inr ⟨h0, h1, if_neg (fun h => h h1)⟩)
    · exact .inr (.inl ⟨h0, h1, if_pos h1⟩)

/-- Delivery appends at most one event, and changes nothing else (42_classifier.md R178). -/
theorem deliver_eq (P : Sized.Params W CW ND NS NX NB) (kind : Option EventKind) (s : Sized.State W CW ND NS NX NB) :
    deliver P kind s = { s with emits := s.emits ++ (match kind with
      | none => []
      | some k => if s.handler ≠ 0 then [⟨s.handler, eventWord P k s.stable⟩] else []) } := by
  cases kind with
  | none => simp [deliver]
  | some k =>
    by_cases h : s.handler ≠ 0
    · simp only [deliver, if_pos h]
      rfl
    · simp only [deliver, if_neg h, List.append_nil]

/-! The folds. -/

/-- What the folds may change: what TICKs may, and raw bits 5 to 7 (42_classifier.md R161). -/
structure FoldFrame (s t : Sized.State W CW ND NS NX NB) : Prop where
  rest : t = { s with raw := t.raw, idx := t.idx, trace := t.trace, env := t.env, draws := t.draws, gaps := t.gaps }
  grows : s.trace <+: t.trace

theorem FoldFrame.refl (s : Sized.State W CW ND NS NX NB) : FoldFrame s s := ⟨rfl, List.prefix_rfl⟩

theorem FoldFrame.trans {s t u : Sized.State W CW ND NS NX NB} (h : FoldFrame s t) (k : FoldFrame t u) :
    FoldFrame s u := by
  refine ⟨?_, h.grows.trans k.grows⟩
  have h1 := h.rest
  have h2 := k.rest
  rw [h1] at h2
  simpa using h2

theorem TickFrame.toFold {s t : Sized.State W CW ND NS NX NB} (h : TickFrame s t) : FoldFrame s t := ⟨h.rest, h.grows⟩

theorem foldKey_frame (P : Sized.Params W CW ND NS NX NB) (k : Fin NX) (s : Sized.State W CW ND NS NX NB) :
    FoldFrame s (foldKey P k s) := by
  have hr : FoldFrame s (readLevel s.extraPin[k] s) := ⟨rfl, List.prefix_append _ _⟩
  unfold foldKey
  dsimp only
  split
  · exact hr.trans ⟨rfl, List.prefix_rfl⟩
  · have hg := (gap_frame P (readLevel s.extraPin[k] s)).toFold
    exact (hr.trans hg).trans ⟨rfl, List.prefix_rfl⟩

theorem foldKeys_frame (P : Sized.Params W CW ND NS NX NB) (ks : List (Fin NX)) (s : Sized.State W CW ND NS NX NB) :
    FoldFrame s (foldKeys P ks s) := by
  induction ks generalizing s with
  | nil => exact FoldFrame.refl s
  | cons k ks ih =>
    unfold foldKeys
    split
    · exact ((foldKey_frame P k s).trans (gap_frame P _).toFold).trans (ih _)
    · exact ih s

/-- With no extra key configured a POLL reads no pin and holds no boundary (42_classifier.md R161). -/
theorem foldKeys_unconfigured (P : Sized.Params W CW ND NS NX NB) (ks : List (Fin NX))
    (s : Sized.State W CW ND NS NX NB) (h : ∀ k ∈ ks, s.extraCfg[k] = false) :
    foldKeys P ks s = s := by
  induction ks generalizing s with
  | nil => rfl
  | cons k ks ih =>
    unfold foldKeys
    rw [h k (by simp)]
    exact ih s (fun k hk => h k (by simp [hk]))

/-- The snapshot step leaves `raw` and everything TICK shares alone (42_classifier.md R162). -/
theorem snapshotStep_rest (hNB : NB ≤ 8) (P : Sized.Params W CW ND NS NX NB) (now : BitVec W)
    (s : Sized.State W CW ND NS NX NB) :
    snapshotStep P now s = { s with
      dbt := (snapshotStep P now s).dbt
      stable := (snapshotStep P now s).stable
      lastStable := (snapshotStep P now s).lastStable
      lastCombo := (snapshotStep P now s).lastCombo
      dblDeadline := (snapshotStep P now s).dblDeadline
      rptDeadline := (snapshotStep P now s).rptDeadline
      longPress := (snapshotStep P now s).longPress
      emits := (snapshotStep P now s).emits } := by
  unfold snapshotStep
  dsimp only
  rw [deliver_eq]
  dsimp only [commit]
  rw [classify_rest, debounce_rest hNB]

end Sys2Proof.Machine
end

