-- ==== Sys2Proof/Laws/Commands.lean ====
section
/-! SUPPORT. What every command other than INIT and POLL leaves alone, said once. -/

namespace Sys2Proof.Machine

/-- What every command other than INIT and POLL leaves alone (20_memory.md R66). -/
structure ClassifierFrame (s t : State) : Prop where
  dbt : t.dbt = s.dbt
  stable : t.stable = s.stable
  last : t.lastStable = s.lastStable
  lp : t.longPress = s.longPress
  rpt : t.rptDeadline = s.rptDeadline
  emits : t.emits = s.emits
  init : t.initialised = s.initialised
  timer : t.timerEnabled = s.timerEnabled
theorem ClassifierFrame.ofTick {s t : State} (f : TickFrame s t) :
    ClassifierFrame s t := by rw [f.rest]; exact ⟨rfl,rfl,rfl,rfl,rfl,rfl,rfl,rfl⟩
theorem ClassifierFrame.trans {s t u : State} (f : ClassifierFrame s t) (g : ClassifierFrame t u) :
    ClassifierFrame s u :=
  ⟨g.1.trans f.1, g.2.trans f.2, g.3.trans f.3, g.4.trans f.4, g.5.trans f.5, g.6.trans f.6, g.7.trans f.7, g.8.trans f.8⟩
/-- A command's atomic steps with TICKs between them leave alone what each of them does. -/
theorem inOrder_frame (fs : List (State → State))
    (hf : ∀ f ∈ fs, ∀ s, ClassifierFrame s (f s) ∧ (f s).handler = s.handler) (s : State) :
    ClassifierFrame s (inOrder Config.board fs s) ∧ (inOrder Config.board fs s).handler = s.handler := by
  induction fs generalizing s with
  | nil => exact ⟨ClassifierFrame.ofTick (TickFrame.refl s), rfl⟩
  | cons a l ih => cases l with
    | nil => exact hf a (by simp) s
    | cons b l =>
      have h1 := hf a (by simp) s
      have h2 := gap_frame Config.board (a s)
      have h3 := ih (fun f m => hf f (by simp [m])) (gap Config.board (a s))
      exact ⟨(h1.1.trans (ClassifierFrame.ofTick h2)).trans h3.1, h3.2.trans (h2.handler.trans h1.2)⟩
theorem writeDigit_frame (p b) (s : State) : ClassifierFrame s (writeDigit p b s) ∧
    (writeDigit p b s).handler = s.handler := ⟨⟨rfl,rfl,rfl,rfl,rfl,rfl,rfl,rfl⟩, rfl⟩

/-- Every command other than INIT and POLL, once INIT has run, has a next state and leaves the classifier, the
deliveries and the control fields alone; and the handler slot too, but for SETHANDLER (20_memory.md R66). -/
theorem exec_between_polls (i : Instr) (s : State) (hi : s.initialised = true) (ht : s.timerEnabled = true)
    (h : i ≠ .init) (hp : isPoll i = false) :
    ∃ t, exec i s = .next t ∧ ClassifierFrame s t ∧ (betweenPolls i = true → t.handler = s.handler) := by
  have host : ∀ c (f : State → State), (ClassifierFrame s (f s) ∧ (f s).handler = s.handler) →
      ∃ t, hostCommand c f s = .next t ∧ ClassifierFrame s t ∧ (betweenPolls i = true → t.handler = s.handler) :=
    fun c f hf => ⟨f s, by simp [hostCommand, hi], hf.1, fun _ => hf.2⟩
  have writes : ∀ ps (f : Fin 4 → Byte), ClassifierFrame s (writeDigits Config.board ps f s) ∧
      (writeDigits Config.board ps f s).handler = s.handler := by
    intro ps f
    refine inOrder_frame _ (fun g hg => ?_) s
    obtain ⟨p, -, rfl⟩ := List.mem_map.mp hg
    exact writeDigit_frame _ _
  cases i with
  | init => exact absurd rfl h
  | poll _ => cases hp
  | sethandler x =>
    exact ⟨writeHandler x s, by simp [exec, execSethandler, hostCommand, hi], ⟨rfl,rfl,rfl,rfl,rfl,rfl,rfl,rfl⟩, nofun⟩
  | setextrakey k p =>
    simp only [exec, execSetextrakey, setextrakeyCommand]
    split
    · exact ⟨_, rfl, ⟨rfl,rfl,rfl,rfl,rfl,rfl,rfl,rfl⟩, fun _ => rfl⟩
    · exact host _ _ ⟨⟨rfl,rfl,rfl,rfl,rfl,rfl,rfl,rfl⟩, rfl⟩
  | showSegs a b c d => exact host _ _ (writes _ _)
  | shownum n st => exact host _ _ (writes _ _)
  | clear => exact host _ _ (writes _ _)
  | setleds x y =>
    refine host _ _ (inOrder_frame _ ?_ s)
    rintro f hf
    rcases List.mem_pair.mp hf with rfl | rfl <;> exact fun s => ⟨⟨rfl,rfl,rfl,rfl,rfl,rfl,rfl,rfl⟩, rfl⟩
  | clearleds m => exact host _ _ ⟨⟨rfl,rfl,rfl,rfl,rfl,rfl,rfl,rfl⟩, rfl⟩
  | tick =>
    exact ⟨tick Config.board s, by simp [exec, execTick, timerTick, ht], ClassifierFrame.ofTick (tick_frame _ _),
      fun _ => (tick_frame _ _).handler⟩

end Sys2Proof.Machine
end

