-- ==== Sys2Proof/Laws/Decode.lean ====
section
/-! SUPPORT. Reading back the fields of a word built from fields. -/

namespace Sys2Proof

theorem getLsbD_place {n : Nat} (v : BitVec n) (lo j : Nat) (hj : j < 64) :
    (place v lo).getLsbD j = (decide (lo ≤ j) && v.getLsbD (j - lo)) := by
  by_cases h : lo ≤ j
  · simp [place, hj, h]
  · simp [place, hj, h, Nat.lt_of_not_le h]

theorem getLsbD_field (c : Word) (lo len j : Nat) (hj : j < len) : (field c lo len).getLsbD j = c.getLsbD (lo + j) := by
  simp [field, hj]

/-- Reading a field of two words put together. -/
@[simp] theorem field_or (a b : Word) (lo len : Nat) : field (a ||| b) lo len = field a lo len ||| field b lo len := by
  apply BitVec.eq_of_getLsbD_eq
  intro j hj
  rw [getLsbD_field _ _ _ _ hj, BitVec.getLsbD_or, BitVec.getLsbD_or, getLsbD_field _ _ _ _ hj, getLsbD_field _ _ _ _ hj]

@[simp] theorem field_zero (lo len : Nat) : field 0#64 lo len = 0#len := by
  apply BitVec.eq_of_getLsbD_eq
  intro j hj
  rw [getLsbD_field _ _ _ _ hj]
  simp

/-- A field reads back what was placed there. -/
theorem field_place {n : Nat} (v : BitVec n) (lo : Nat) (h : lo + n ≤ 64) : field (place v lo) lo n = v := by
  apply BitVec.eq_of_getLsbD_eq
  intro j hj
  rw [getLsbD_field _ _ _ _ hj, getLsbD_place _ _ _ (by omega)]
  simp

/-- A field below what was placed reads 0. -/
theorem field_place_below {n : Nat} (v : BitVec n) (lo at' len : Nat) (h : at' + len ≤ lo) (h64 : lo ≤ 64) :
    field (place v lo) at' len = 0#len := by
  apply BitVec.eq_of_getLsbD_eq
  intro j hj
  rw [getLsbD_field _ _ _ _ hj, getLsbD_place _ _ _ (by omega)]
  have e : ¬ lo ≤ at' + j := by omega
  simp [e]

/-- A field above what was placed reads 0. -/
theorem field_place_above {n : Nat} (v : BitVec n) (lo at' len : Nat) (h : lo + n ≤ at') (h64 : at' + len ≤ 64) :
    field (place v lo) at' len = 0#len := by
  apply BitVec.eq_of_getLsbD_eq
  intro j hj
  rw [getLsbD_field _ _ _ _ hj, getLsbD_place _ _ _ (by omega), BitVec.getLsbD_of_ge v _ (by omega)]
  simp

/-- Every encoding's opcode field is the command's opcode (30_encoding.md R70, R72). -/
theorem field_encode_opcode (i : Instr) : field (encode i) 56 8 = i.opcode := by
  cases i <;> simp (disch := decide) [encode, Instr.operands, field_place, field_place_above, Instr.opcode]

end Sys2Proof
end

