-- ==== Sys2Proof/Laws/Parametric.lean ====
section
/-! SUPPORT. The machine `exec` and `step` run is the parametric one at the board's sizes and parameters. -/

namespace Sys2Proof.Machine

theorem reset_eq_resetWith : State.reset = resetWith 0 := rfl

theorem exec_eq_execWith (i : Instr) (s : State) : exec i s = execWith Config.board (.other i) s := by
  cases i with
  | poll now => simp only [exec, execPoll, execWith, BitVec.setWidth_eq]
  | _ => rfl

/-- A POLL read as a W-bit command is the table's POLL where W is 32 (30_encoding.md R81). -/
theorem execWith_poll (now : Time) (s : State) : execWith Config.board (.poll now) s = exec (.poll now) s := rfl

/-- The decoder of R84 is the W-bit one at W = 32: POLL's word on the HOST port, and every other word on either port. -/
theorem decodeCommand_poll (c : Word) (h : field c 56 8 = 0x30) :
    decodeCommand 32 .host c = unlessReserved (field c 32 24) (.ok (.poll (field c 0 32))) ∧
    decode .host c = unlessReserved (field c 32 24) (.ok (.poll (field c 0 32))) :=
  ⟨if_pos ⟨rfl, h⟩, by simp [decode, decodeHost, h]⟩

theorem step_eq_stepWith (s : State) : step s = stepWith Config.board s := by
  unfold step stepWith
  cases s.inbox with
  | nil => rfl
  | cons a rest =>
    obtain ⟨p, c, g⟩ := a
    dsimp only
    by_cases h : p = .host ∧ field c 56 8 = 0x30
    · obtain ⟨rfl, h⟩ := h
      rw [(decodeCommand_poll c h).1, (decodeCommand_poll c h).2]
      by_cases r : field c 32 24 = 0
      · simp only [unlessReserved, if_pos r, execWith_poll]
      · simp only [unlessReserved, if_neg r]
    · rw [decodeCommand, if_neg h]
      cases decode p c with
      | ok i => exact exec_eq_execWith i _
      | error r => rfl

end Sys2Proof.Machine
end

