-- ==== Sys2Proof/Laws/PerInstr.lean ====
section
/-! SUPPORT. The per-instruction family OpcodeRowOf: each command's encoding carries the opcode of its own row of the
opcode table, on its own port (30_encoding.md R72). -/

namespace Sys2Proof.Laws.OpcodeRowOf

/-- The encoding's opcode field is the command's opcode, and the row of its mnemonic has that opcode and its port. -/
def Statement (i : Instr) : Prop :=
  field (encode i) 56 8 = i.opcode ∧
    ∃ row ∈ opcodeTable, row.mnemonic = i.mnemonic ∧ row.port = i.port ∧ field row.bits 56 8 = i.opcode

theorem init : Statement .init := ⟨field_encode_opcode _, opcodeTable[0], by decide⟩

theorem sethandler (h : HandlerId) : Statement (.sethandler h) :=
  ⟨field_encode_opcode _, opcodeTable[1], by decide, rfl, rfl, rfl⟩

theorem setextrakey (key : BitVec 2) (pin : PinId) : Statement (.setextrakey key pin) :=
  ⟨field_encode_opcode _, opcodeTable[2], by decide, rfl, rfl, rfl⟩

theorem showSegs (d0 d1 d2 d3 : Byte) : Statement (.showSegs d0 d1 d2 d3) :=
  ⟨field_encode_opcode _, opcodeTable[3], by decide, rfl, rfl, rfl⟩

theorem shownum (n : BitVec 16) (start : BitVec 8) : Statement (.shownum n start) :=
  ⟨field_encode_opcode _, opcodeTable[4], by decide, rfl, rfl, rfl⟩

theorem clear : Statement .clear := ⟨field_encode_opcode _, opcodeTable[5], by decide⟩

theorem setleds (bits mask : Byte) : Statement (.setleds bits mask) :=
  ⟨field_encode_opcode _, opcodeTable[6], by decide, rfl, rfl, rfl⟩

theorem clearleds (mask : Byte) : Statement (.clearleds mask) :=
  ⟨field_encode_opcode _, opcodeTable[7], by decide, rfl, rfl, rfl⟩

theorem poll (now : Time) : Statement (.poll now) :=
  ⟨field_encode_opcode _, opcodeTable[8], by decide, rfl, rfl, rfl⟩

theorem tick : Statement .tick := ⟨field_encode_opcode _, opcodeTable[9], by decide⟩

end Sys2Proof.Laws.OpcodeRowOf
end

