-- ==== Sys2Proof/Laws/Poll.lean ====
section
/-! SUPPORT. What one POLL can do, said once. -/

namespace Sys2Proof.Machine

/-- A lane sets `newKeyPress` when it is unlocked, its key reads down and it is not yet stable (42_classifier.md R164). -/
theorem laneAt_newPress (r : Byte) (u : State) (j : Fin 6) : (laneAt Config.board r u j).newPress = true ↔
    (u.dbt[j] = 0 ∧ r.getLsbD j = true ∧ u.stable.getLsbD j = false) := by
  simp only [laneAt]
  by_cases h : u.dbt[j] = 0
  · rw [h, laneStep_open]; cases r.getLsbD j <;> cases u.stable.getLsbD j <;> simp
  · rw [laneStep_locked _ _ _ _ h]; constructor
    · intro e; simp at e
    · intro e; exact absurd e.1 h

/-- `newKeyPress`, read at the state the POLL starts from (42_classifier.md R164). -/
theorem debounce_newKeyPress (s u : State) (h : FoldFrame s u) :
    (debounce Config.board u.raw u).2 = true ↔ AdoptsPress s u.raw := by
  rw [debounce_press (by decide)]
  refine exists_congr fun j => ?_
  rw [laneAt_newPress, h.rest]

/-- A whole POLL leaves the display, the configuration, the control fields and the inbox alone (20_memory.md R66). -/
theorem pollWith_rest (P : Params) (now : Time) (s : State) :
    pollWith P now s = { s with
      raw := (pollWith P now s).raw
      dbt := (pollWith P now s).dbt
      stable := (pollWith P now s).stable
      lastStable := (pollWith P now s).lastStable
      lastCombo := (pollWith P now s).lastCombo
      dblDeadline := (pollWith P now s).dblDeadline
      rptDeadline := (pollWith P now s).rptDeadline
      longPress := (pollWith P now s).longPress
      emits := (pollWith P now s).emits
      idx := (pollWith P now s).idx
      trace := (pollWith P now s).trace
      env := (pollWith P now s).env
      draws := (pollWith P now s).draws
      gaps := (pollWith P now s).gaps } := by
  have h := (foldKeys_frame P (List.finRange 3) s).rest
  unfold pollWith
  rw [snapshotStep_rest (by decide), h]

/-- One POLL, inverted: the folds, then exactly one branch, with everything that branch does to the classifier's fields and
the deliveries (42_classifier.md R161-R178). -/
theorem poll_cases (now : Time) (s : State) :
    ∃ u, FoldFrame s u ∧ u = foldKeys Config.board (List.finRange 3) s ∧
      let d := debounce Config.board u.raw u
      let t := pollWith Config.board now s
      t.raw = u.raw ∧ t.stable = d.1.stable ∧ t.dbt = d.1.dbt ∧ t.lastStable = t.stable ∧ t.handler = s.handler ∧
      (d.2 = true ↔ AdoptsPress s t.raw) ∧
      ((t.stable = 0 ∧ t.longPress = false ∧ t.rptDeadline = 0 ∧ t.lastCombo = s.lastCombo ∧ t.dblDeadline = s.dblDeadline ∧
        t.emits = s.emits) ∨
       (t.stable ≠ 0 ∧ t.stable ≠ s.lastStable ∧ t.longPress = false ∧ t.rptDeadline = now + Config.board.tHold ∧
         ((AdoptsPress s t.raw ∧ t.lastCombo = t.stable ∧ t.dblDeadline = now + Config.board.tDblclick ∧
           t.emits = s.emits ++ delivered s.handler
            (if t.stable = s.lastCombo ∧ before Config.board now s.dblDeadline = true then .double else .press) t.stable) ∨
          (¬ AdoptsPress s t.raw ∧ t.lastCombo = s.lastCombo ∧ t.dblDeadline = s.dblDeadline ∧ t.emits = s.emits))) ∨
       (t.stable ≠ 0 ∧ t.stable = s.lastStable ∧ t.lastCombo = s.lastCombo ∧ t.dblDeadline = s.dblDeadline ∧
         ((reached Config.board now s.rptDeadline = true ∧ t.longPress = true ∧ t.rptDeadline = s.rptDeadline + Config.board.tRepeat ∧
           t.emits = s.emits ++ delivered s.handler (if s.longPress then .auto else .hold) t.stable) ∨
          (reached Config.board now s.rptDeadline = false ∧ t.longPress = s.longPress ∧ t.rptDeadline = s.rptDeadline ∧ t.emits = s.emits)))) := by
  refine ⟨_, foldKeys_frame Config.board (List.finRange 3) s, rfl, ?_⟩
  have hf := foldKeys_frame Config.board (List.finRange 3) s
  generalize hu : foldKeys Config.board (List.finRange 3) s = u at hf ⊢
  have hd := debounce_rest (by decide) Config.board u.raw u
  have ha := debounce_newKeyPress s u hf
  generalize hD : debounce Config.board u.raw u = d at hd ha ⊢
  obtain ⟨d1, np⟩ := d
  simp only at hd ha ⊢
  have hur := hf.rest
  have ht : pollWith Config.board now s = deliver Config.board (classify Config.board now np d1).2 (commit (classify Config.board now np d1).1) := by
    simp [pollWith, hu, snapshotStep, hD]
  have raw' : d1.raw = u.raw := by rw [hd]
  have e1 : d1.lastStable = s.lastStable := by rw [hd, hur]
  have e2 : d1.lastCombo = s.lastCombo := by rw [hd, hur]
  have e3 : d1.dblDeadline = s.dblDeadline := by rw [hd, hur]
  have e4 : d1.rptDeadline = s.rptDeadline := by rw [hd, hur]
  have e5 : d1.longPress = s.longPress := by rw [hd, hur]
  have e6 : d1.handler = s.handler := by rw [hd, hur]
  have e7 : d1.emits = s.emits := by rw [hd, hur]
  have dv : ∀ k st, delivered s.handler k st = if s.handler ≠ 0 then [⟨s.handler, eventWord Config.board k st⟩] else [] := by
    intro k st
    unfold delivered eventWord
    by_cases h : s.handler = 0 <;> simp [h]
  rw [deliver_eq] at ht
  rcases classify_cases Config.board now np d1 with ⟨h0, hc⟩ | ⟨h0, h1, hc⟩ | ⟨h0, h1, hc⟩
  · rw [hc] at ht
    simp only [zeroBranch, clearLongPress, commit] at ht
    rw [ht]
    have ha' : AdoptsPress s d1.raw = AdoptsPress s u.raw := by rw [raw']
    exact ⟨raw', rfl, rfl, rfl, e6, by rw [ha']; exact ha, .inl ⟨h0, rfl, rfl, e2, e3, by simp [e7]⟩⟩
  · rw [hc] at ht
    rw [e1] at h1
    cases np with
    | true =>
      simp only [changeBranch, clearLongPress, commit, if_true, pressKind] at ht
      rw [ht]
      have ha' : AdoptsPress s d1.raw = AdoptsPress s u.raw := by rw [raw']
      exact ⟨raw', rfl, rfl, rfl, e6, by rw [ha']; exact ha, .inr (.inl ⟨h0, h1, rfl, rfl, .inl ⟨ha' ▸ ha.mp rfl, rfl, rfl, by simp only [dv, e2, e3, e6, e7]⟩⟩)⟩
    | false =>
      simp only [changeBranch, clearLongPress, commit, if_false, Bool.false_eq_true] at ht
      rw [ht]
      have na : ¬ AdoptsPress s u.raw := fun h => by simpa using ha.mpr h
      have ha' : AdoptsPress s d1.raw = AdoptsPress s u.raw := by rw [raw']
      exact ⟨raw', rfl, rfl, rfl, e6, by rw [ha']; exact ha, .inr (.inl ⟨h0, h1, rfl, rfl, .inr ⟨ha' ▸ na, e2, e3, by simp [e7]⟩⟩)⟩
  · rw [hc] at ht
    rw [e1] at h1
    by_cases hr : reached Config.board now s.rptDeadline = true
    · simp only [heldBranch, e4, hr, setLongPress, commit, if_true, repeatKind] at ht
      rw [ht]
      have hrel : reload Config.board s.rptDeadline now = s.rptDeadline + Config.board.tRepeat := rfl
      have ha' : AdoptsPress s d1.raw = AdoptsPress s u.raw := by rw [raw']
      exact ⟨raw', rfl, rfl, rfl, e6, by rw [ha']; exact ha, .inr (.inr ⟨h0, h1, e2, e3, .inl ⟨hr, rfl, hrel, by simp only [dv, e5, e6, e7]⟩⟩)⟩
    · simp only [Bool.not_eq_true] at hr
      simp only [heldBranch, e4, hr, commit, if_false, Bool.false_eq_true] at ht
      rw [ht]
      have ha' : AdoptsPress s d1.raw = AdoptsPress s u.raw := by rw [raw']
      exact ⟨raw', rfl, rfl, rfl, e6, by rw [ha']; exact ha, .inr (.inr ⟨h0, h1, e2, e3, .inr ⟨hr, e5, rfl, by simp [e7]⟩⟩)⟩

end Sys2Proof.Machine
end

