-- ==== Sys2Proof/Tests/Slice0.lean ====
section
/-! SUPPORT. The model's own tests. Expected results are the spec's own vectors and worked examples (95_test_vectors.md; the rule
or vector is named at each); the `witness_` theorems show that the hypotheses of the statements can be met together. -/

namespace Sys2Proof.Tests

open Sys2Proof.Machine

/-- The base state B of 95_test_vectors.md, with handler 1. -/
def base : State := { State.reset with initialised := true, timerEnabled := true, handler := 1 }

/-- A board with concrete pins and levels, for tests of the parametric operations. -/
def bench : Params := { Config.board with
  pinDigit := #v[2, 3, 4, 5], pinClk := 6, pinData := 7, pinSwRead := 8
  digitOnLevel := true, swPressedLevel := false, extraPressedLevel := true }

/-- POLL on the board. -/
abbrev polled (now : Time) (s : State) : State := pollWith Config.board now s

/-! Well-formedness: the one ill-formed term (30_encoding.md R85 item 3). -/

theorem test_wellFormed_refuses_key3 : (Instr.setextrakey 3 9).wellFormed = false := by decide

theorem test_wellFormed_admits_keyC : (Instr.setextrakey 2 9).wellFormed = true := by decide

/-! Decoding: words written out from R73-R82, one per format and family (vectors DEC6, DEC9, DEC12, DEC16, DEC19 and 2.3-2.9). -/

theorem test_decode_init : decodeTableWord 64 0x0100000000000000 = some .init := by decide

theorem test_decode_sethandler : decodeTableWord 64 0x020000000000FFFF = some (.sethandler 0xFFFF) := by decide

theorem test_decode_setextrakey : decodeTableWord 64 0x03000000000002FF = some (.setextrakey 2 255) := by decide

theorem test_decode_show : decodeTableWord 64 0x10000000FB000480 = some (.showSegs 0x80 0x04 0x00 0xFB) := by decide

theorem test_decode_shownum : decodeTableWord 64 0x1100000000FF270F = some (.shownum 9999 255) := by decide

theorem test_decode_clear : decodeTableWord 64 0x1200000000000000 = some .clear := by decide

theorem test_decode_setleds : decodeTableWord 64 0x200000000000F00F = some (.setleds 0x0F 0xF0) := by decide

theorem test_decode_clearleds : decodeTableWord 64 0x210000000000000F = some (.clearleds 0x0F) := by decide

theorem test_decode_poll : decodeTableWord 64 0x30000000FFFFFFFF = some (.poll 0xFFFFFFFF) := by decide

theorem test_decode_tick : decodeTableWord 64 0x4000000000000000 = some .tick := by decide

/-- DEC8: bit 10 of SETEXTRAKEY is reserved, and is checked before the key (60_exceptions.md R224). -/
theorem test_decode_reserved_bit10 : decode .host 0x0300000000000700 = .error .reservedBits := rfl

/-- DEC15: bit 32 of POLL is reserved at W = 32. -/
theorem test_decode_reserved_bit32 : decode .host 0x3000000100000000 = .error .reservedBits := rfl

/-- DEC20: the TIMER port checks the whole word only. -/
theorem test_decode_timer_port : decode .timer 0x4000000000000001 = .error .notTimerCommand := rfl

theorem test_encode_show : encode (.showSegs 0x28 0xB3 0xBA 0x78) = 0x1000000078BAB328 := by decide

/-! The assembler (30_encoding.md R87, R88). -/

theorem test_assemble_comment : assembleLine "  setleds 0x0F, 15 ; both".toList = .command (.setleds 0x0F 0x0F) := by decide

theorem test_assemble_out_of_range : assembleLine "shownum 65536, 0".toList = .malformed := by decide

/-! INIT, SETHANDLER, SETEXTRAKEY. -/

/-- IN3: INIT leaves the refusal mark. -/
theorem test_init_keeps_refused : ∃ t, execInit { base with refused := true, led := 0xFF } = .next t ∧
    t.refused = true ∧ t.led = 0 ∧ t.handler = 0 ∧ t.timerEnabled = true := ⟨_, rfl, by decide⟩

/-- IN1: 13 trace events. -/
theorem test_init_events : ∃ t, execInit State.reset = .next t ∧ t.trace.length = 13 := ⟨_, rfl, by decide⟩

/-- HD1: the last write wins. -/
theorem test_sethandler : ∃ t, execSethandler 7 base = .next t ∧ t.handler = 7 := ⟨_, rfl, by decide⟩

/-- XK2. -/
theorem test_setextrakey : ∃ t, execSetextrakey 2 255 base = .next t ∧ t.extraCfg = #v[false, false, true] ∧
    t.extraPin = #v[0, 0, 255] ∧ t.trace = [.cfgIn 255] := ⟨_, rfl, by decide⟩

/-! SHOW, SHOWNUM, CLEAR. -/

/-- SH2: omitted operands blank. -/
theorem test_show : ∃ t, execShowSegs 0x3F 0 0 0 { base with digit := #v[0x28, 0xB3, 0xBA, 0x78] } = .next t ∧
    t.digit = #v[0x3F, 0, 0, 0] := ⟨_, rfl, by decide⟩

/-- SH5: a TICK after the first write shifts the old digit[1]; the command completes. -/
theorem test_show_torn : (inOrder bench [writeDigit 0 0x55, writeDigit 1 0x55, writeDigit 2 0x55, writeDigit 3 0x55]
    { base with digit := #v[0xAA, 0xAA, 0xAA, 0xAA], idx := 1, gaps := [1], env := [true] }).trace
      = .read 8 true :: (digitsOff bench ++ (shiftOut bench 0xAA ++ [.write 3 true])) := by decide

/-- SN11: positions below start keep their patterns. -/
theorem test_shownum : ∃ t, execShownum 42 2 { base with digit := #v[0x28, 0xB3, 0xBA, 0x78] } = .next t ∧
    t.digit = #v[0x28, 0xB3, 0x78, 0xB3] := ⟨_, rfl, by decide⟩

/-- SN8: truncation. -/
theorem test_shownum_truncates : ∃ t, execShownum 65535 0 base = .next t ∧ t.digit = #v[0xDA, 0xDA, 0xBA, 0xDA] :=
  ⟨_, rfl, by decide⟩

/-- CL1. -/
theorem test_clear : ∃ t, execClear { base with digit := #v[0x28, 0xB3, 0xBA, 0x78], led := 0x1F } = .next t ∧
    t.digit = #v[0, 0, 0, 0] ∧ t.led = 0x1F := ⟨_, rfl, by decide⟩

/-! SETLEDS, CLEARLEDS. -/

/-- SL3: set is not masked by mask. -/
theorem test_setleds : ∃ t, execSetleds 0x01 0x00 { base with led := 0xF0 } = .next t ∧ t.led = 0xF1 := ⟨_, rfl, by decide⟩

/-- SL8: a TICK between the two writes at slot 4 shifts 0xF0. -/
theorem test_setleds_intermediate : (inOrder bench [clearLedBits 0x0F, setLedBits 0x01]
    { base with led := 0xFF, idx := 4, gaps := [1], env := [true] }).trace
      = .read 8 true :: (digitsOff bench ++ shiftOut bench 0xF0) := by decide

/-- CLL1. -/
theorem test_clearleds : ∃ t, execClearleds 0x0F { base with led := 0xFF } = .next t ∧ t.led = 0xF0 := ⟨_, rfl, by decide⟩

/-! TICK. -/

/-- T4: bits 5..7 unchanged; the read returns the other level. -/
theorem test_tick_sample : (tick bench { base with idx := 2, raw := 0xE4, env := [true] }).raw = 0xE0 := by decide

/-- T3's complete trace: 31 events, none of them an enable. -/
theorem test_tick_slot4 : (tick bench { base with idx := 4, led := 0x1F, env := [false] }).trace =
    [.read 8 false, .write 2 false, .write 3 false, .write 4 false, .write 5 false,
     .write 7 false, .write 6 true, .write 6 false, .write 7 false, .write 6 true, .write 6 false,
     .write 7 false, .write 6 true, .write 6 false, .write 7 true, .write 6 true, .write 6 false,
     .write 7 true, .write 6 true, .write 6 false, .write 7 true, .write 6 true, .write 6 false,
     .write 7 true, .write 6 true, .write 6 false, .write 7 true, .write 6 true, .write 6 false,
     .write 6 true, .write 6 false] := by decide

/-! POLL. -/

/-- V11: a partial release is silent, clears longPress and pushes the repeat deadline. -/
theorem test_poll_partial_release :
    let t := polled 1000 { base with
      stable := 3, lastStable := 3, lastCombo := 3, dblDeadline := 1200, rptDeadline := 2000, longPress := true, raw := 1 }
    t.stable = 1 ∧ t.dbt = #v[0, 20, 0, 0, 0, 0] ∧ t.longPress = false ∧ t.rptDeadline = 1500 ∧ t.lastStable = 1 ∧
      t.lastCombo = 3 ∧ t.dblDeadline = 1200 ∧ t.emits = [] := by decide

/-- V15b: DOUBLE across the wrap of the clock; V15's other column under PLAIN_UNSIGNED. -/
theorem test_poll_wrap :
    let s : State := { base with lastCombo := 1, dblDeadline := 0x68, raw := 1 }
    (polled 0xFFFFFFF0 s).emits = [⟨1, 0x0201⟩] ∧ (polled 0xFFFFFFF0 s).dblDeadline = 0xB8 ∧
      (pollWith { Config.board with timeCompare := .plainUnsigned } 0xFFFFFFF0 s).emits = [⟨1, 0x0101⟩] := by decide

/-- V22: the fold, a TICK before the snapshot, and both bits in the event word. -/
theorem test_poll_fold_then_tick :
    (pollWith bench 10 { base with
      extraCfg := #v[true, false, false], extraPin := #v[9, 0, 0], gaps := [1], env := [true, false] }).emits = [⟨1, 0x0121⟩] := by decide

/-- 41_display.md R131: each font byte is the OR of its segments (R130). -/
theorem test_font_segments :
    Config.digitFont[2] = Config.segments.a ||| Config.segments.b ||| Config.segments.d ||| Config.segments.e ||| Config.segments.g ∧
    Config.digitFont[7] = Config.segments.a ||| Config.segments.b ||| Config.segments.c ∧
    Config.digitFont[9] = Config.segments.a ||| Config.segments.b ||| Config.segments.c ||| Config.segments.d ||| Config.segments.f ||| Config.segments.g := by
  decide

/-! The step. -/

/-- SH4, P5: before INIT a command is refused, with its word, and the block goes on. -/
theorem test_step_refused_before_init : ∃ t, step (State.reset.withFetchWord 64 0x1000000000000028) = .next t ∧
    t.refused = true ∧ t.firstRefusal = some ⟨.notInitialised, 0x1000000000000028⟩ ∧ t.digit = #v[0, 0, 0, 0] :=
  ⟨_, rfl, by decide⟩

/-- DEC24: INIT runs first after power-on. -/
theorem test_step_init_first : step (State.reset.withFetchWord 64 0x0100000000000000) = execInit State.reset := rfl

/-! Witnesses: the hypotheses of each statement, met together. -/

theorem witness_DecodeOfEncodeIsTheCommand : (Instr.setextrakey 2 255).wellFormed = true := by decide

theorem witness_EncodeOfDecodeIsTheWord :
    decode .host 0x0300000000000109 = .ok (.setextrakey 1 9) ∧ decode .timer 0x4000000000000000 = .ok .tick := ⟨rfl, rfl⟩

theorem witness_IllegalEncodingsAreRefused :
    (∀ row ∈ opcodeTable, field row.bits 56 8 ≠ field 0x4100000000000000 56 8) ∧
    (field opcodeTable[6].bits 56 8 = field 0x2000000000010000 56 8 ∧ opcodeTable[6].matches 0x2000000000010000 = false) ∧
    (opcodeTable[2].matches 0x0300000000000300 = true ∧ field 0x0300000000000300 8 2 = 3) ∧
    (0x4000000000000001 : Word) ≠ tickWord ∧
    (opcodeTable[2].matches 0x03000000000002FF = true ∧ field 0x03000000000002FF 8 2 ≠ 3) := by decide

theorem witness_BytesAreLittleEndian : ([1, 2, 3, 4, 5, 6, 7] : List Byte).length < 8 := by decide

theorem witness_AliasesExpandToOneCommand :
    operand 8 "0x28".toList = some 0x28 ∧ operand 8 "255".toList = some 0xFF ∧ operand 8 "0".toList = some 0 ∧
    assembleLine "run 7".toList = .command (.poll 7) ∧ base.initialised = true := by decide

theorem witness_StepRunsTheDecodedCommand :
    ({ base with inbox := [⟨.timer, 0x4000000000000000, []⟩] } : State).inbox = ⟨.timer, 0x4000000000000000, []⟩ :: [] ∧
    decode .timer 0x4000000000000000 = .ok .tick ∧ (Instr.clear).wellFormed = true ∧
    ({ base with inbox := [⟨Instr.clear.port, encode .clear, [2]⟩] } : State).inbox
      = ⟨Instr.clear.port, encode .clear, [2]⟩ :: [] := ⟨rfl, rfl, rfl, rfl⟩

theorem witness_IdleBlockIsUnchanged : base.inbox = [] := rfl

theorem witness_RefusalsChangeOnlyTheMark :
    decode .host 0x0500000000000000 = .error .illegalOpcode ∧ decode .timer 0x0100000000000000 = .error .notTimerCommand ∧
    ((Instr.clear).wellFormed = true ∧ (Instr.clear).port = .host ∧ Instr.clear ≠ .init ∧ State.reset.initialised = false) ∧
    (step base = .next base ∧ base.accepted) :=
  ⟨rfl, rfl, by decide, rfl, rfl⟩

theorem witness_OnlyInitRunsBeforeInit :
    State.reset.initialised = false ∧ State.reset.timerEnabled = State.reset.initialised ∧ State.reset.firstRefusal = none ∧
    ((Instr.poll 10).wellFormed = true ∧ (Instr.poll 10).port = .host ∧ Instr.poll 10 ≠ .init) := by decide

theorem witness_RefusalReasonPriority :
    base.firstRefusal = none ∧
    (field opcodeTable[2].bits 56 8 = field 0x0300000000000700 56 8 ∧ opcodeTable[2].matches 0x0300000000000700 = false) ∧
    (field 0x0300000000000300 56 8 = 0x03 ∧ field 0x0300000000000300 10 46 = 0 ∧ field 0x0300000000000300 8 2 = 3) ∧
    (field opcodeTable[9].bits 56 8 = field 0x4000000000000001 56 8 ∧ opcodeTable[9].matches 0x4000000000000001 = false) ∧
    (field opcodeTable[0].bits 56 8 = field 0x0100000000000001 56 8 ∧ opcodeTable[0].matches 0x0100000000000001 = false) ∧
    (∀ row ∈ opcodeTable, field row.bits 56 8 ≠ field 0 56 8) ∧
    (0x0100000000000000 : Word) ≠ tickWord ∧ State.reset.initialised = false ∧ State.reset.firstRefusal = none := by decide

theorem witness_RefusalReasonPriority_notInitialised : decode .host 0x30000000000003E8 = .ok (.poll 1000) := rfl

theorem witness_FirstRefusalIsKept :
    let s : State := { base with refused := true, firstRefusal := some ⟨.badKey, 0x0300000000000300⟩ }
    step s = .next s ∧ s.firstRefusal = some ⟨.badKey, 0x0300000000000300⟩ := ⟨rfl, rfl⟩

theorem witness_EveryArrivalHasANextState :
    let s : State := { base with inbox := [⟨.timer, tickWord, []⟩] }
    s.inbox = ⟨.timer, tickWord, []⟩ :: [] ∧ s.timerEnabled = true := ⟨rfl, rfl⟩

theorem witness_PowerOnValuesAreUnobservable :
    let s := { State.reset with inbox := [⟨.host, 0x0100000000000000, []⟩] }
    SameControl s { s with led := 0x5A, idx := 3, stable := 0xFF } ∧ s.initialised = false ∧ s.timerEnabled = false :=
  ⟨⟨rfl, rfl, rfl, rfl, rfl, rfl, rfl, rfl⟩, rfl, rfl⟩

/-- For InitLeavesTheDisplayDark, and DigitsAreOffWhileShifting; the read pin is its own pin, or is PIN_DIGIT[0]. -/
theorem witness_InitLeavesTheDisplayDark :
    bench.OutputPinsDistinct ∧ bench.pinSwRead ≠ bench.pinDigit[0] ∧
    Params.OutputPinsDistinct { bench with pinSwRead := 2 } ∧ (2 : PinId) = bench.pinDigit[0] := by
  refine ⟨?_, ?_, ?_, ?_⟩ <;> first | decide | (unfold Params.OutputPinsDistinct; decide)

theorem witness_SethandlerWritesTheSlot : base.initialised = true ∧ State.reset.initialised = false := by decide

theorem witness_SetextrakeyConfiguresTheKey :
    base.initialised = true ∧ State.reset.initialised = false ∧ field 0x0300000000000309 56 8 = 0x03 ∧
    field 0x0300000000000309 10 46 = 0 ∧ field 0x0300000000000309 8 2 = 3 := by decide

theorem witness_ShowWritesTheFourDigits :
    State.reset.initialised = false ∧ (base.initialised = true ∧ base.gaps = []) ∧
    (({ base with gaps := [1, 0, 2] } : State).initialised = true ∧ ({ base with gaps := [1, 0, 2] } : State).gaps = [1, 0, 2]) := by
  decide

theorem witness_TickInsideShowSeesATornFrame :
    (let s : State := { base with gaps := [1] }; s.initialised = true ∧ s.timerEnabled = true ∧ s.gaps = List.replicate 0 0 ++ [1]) ∧
    (let s : State := { base with gaps := [0, 0, 1], idx := 4 }
     s.initialised = true ∧ s.timerEnabled = true ∧ s.gaps = List.replicate 2 0 ++ [1]) := by decide

theorem witness_ShownumShowsPositionAlignedDigits :
    base.initialised = true ∧ 3 < (4 : BitVec 8).toNat ∧ ¬ 3 < (3 : BitVec 8).toNat ∧ (3 : BitVec 8).toNat ≤ 3 ∧
    ¬ (3 : BitVec 8).toNat ≤ 2 := by decide

theorem witness_TickInsideShownumSeesATornFrame :
    (let s : State := { base with gaps := [0, 1] }
     s.initialised = true ∧ s.timerEnabled = true ∧ (1 : BitVec 8).toNat + 1 < 3 ∧ s.gaps = List.replicate 1 0 ++ [1]) ∧
    (let s : State := { base with gaps := [0, 0, 1] }
     3 < (4 : BitVec 8).toNat ∧ 2 < 3 ∧ s.gaps = List.replicate 2 0 ++ [1]) := by decide

theorem witness_ClearBlanksOnlyTheDigits :
    State.reset.initialised = false ∧ (base.initialised = true ∧ base.gaps = []) ∧ ({ base with gaps := [0, 3, 1] } : State).gaps = [0, 3, 1] := by decide

theorem witness_SetledsClearsThenSets :
    State.reset.initialised = false ∧ (base.initialised = true ∧ base.gaps = []) ∧ ({ base with gaps := [2] } : State).gaps = 2 :: [] ∧
    (let s : State := { base with gaps := [1], idx := 4 }; s.idx = 4 ∧ s.timerEnabled = true ∧ s.gaps = [1]) := by decide

theorem witness_ClearledsClearsTheMask : base.initialised = true ∧ State.reset.initialised = false := by decide

theorem witness_DisplayAndConfigurationAreIdempotent :
    base.initialised = true ∧ base.gaps = [] ∧ exec (.sethandler 7) base = .next (writeHandler 7 base) ∧ (2 : BitVec 2) ≠ 3 :=
  ⟨rfl, rfl, rfl, by decide⟩

theorem witness_TickSamplesShiftsAndAdvances :
    State.reset.timerEnabled = false ∧ base.timerEnabled = true ∧ base.idx.val < 4 ∧ ¬ ({ base with idx := 4 } : State).idx.val < 4 := by decide

theorem witness_TickNeedsTheTimer : State.reset.timerEnabled = false := rfl

theorem witness_FiveTicksScanEverySlot : ({ base with idx := 3 } : State).timerEnabled = true := rfl

theorem witness_TickReadsOnlyItsColumn :
    let u : State := { base with stable := 0x3F, handler := 9, raw := 0xFF }
    base.digit = u.digit ∧ base.led = u.led ∧ base.idx = u.idx ∧ base.env = u.env ∧ base.draws = u.draws ∧
    exec .tick base = .next (tick Config.board base) ∧ exec .tick u = .next (tick Config.board u) :=
  ⟨rfl, rfl, rfl, rfl, rfl, rfl, rfl⟩

theorem witness_TickDisplaysTheSlotsByte :
    bench.OutputPinsDistinct ∧ (shiftRegRun bench ⟨0xA5, 0x5A, false, true⟩ base.trace).clk = bench.clkIdle :=
  ⟨by unfold Params.OutputPinsDistinct; decide, by decide⟩

/-- T1 under the reference register: position 0 shows 0x28 and no other position shows anything. -/
theorem test_tick_shown :
    let t := tick bench { base with digit := #v[0x28, 0, 0, 0], env := [false] }
    (List.map (shownAt bench ⟨0xA5, 0x5A, false, true⟩ t.trace) [0, 1, 2, 3]) = [some 0x28, none, none, none] := by decide

theorem witness_PollDebouncesSixLanes :
    let s : State := { base with dbt := #v[5, 0, 0, 0, 0, 0], stable := 2, raw := 5 }
    s.initialised = true ∧ s.dbt[0] ≠ 0 ∧ (polled 10 s).raw.getLsbD 3 = s.stable.getLsbD 3 ∧
    (polled 10 s).raw.getLsbD 2 ≠ s.stable.getLsbD 2 ∧ (polled 10 s).raw.getLsbD 1 ≠ s.stable.getLsbD 1 := by decide

theorem witness_PollWithNoKeysIsSilent : base.initialised = true ∧ (polled 10 base).stable = 0 := by decide

theorem witness_PollChangeIsPressOrDouble :
    (let s : State := { base with raw := 1 }
     (polled 50 s).stable ≠ 0 ∧ (polled 50 s).stable ≠ s.lastStable ∧ AdoptsPress s (polled 50 s).raw) ∧
    (let s : State := { base with raw := 1, stable := 3, lastStable := 3 }
     (polled 50 s).stable ≠ 0 ∧ (polled 50 s).stable ≠ s.lastStable ∧ ¬ AdoptsPress s (polled 50 s).raw) ∧
    (let s : State := { base with raw := 1, lastCombo := 1, dblDeadline := 300 }
     (polled 299 s).stable = s.lastCombo ∧ 2 ^ 31 ≤ (299 - s.dblDeadline).toNat ∧ ¬ 2 ^ 31 ≤ (300 - s.dblDeadline).toNat) := by
  decide

theorem witness_PollHeldIsHoldOrAuto :
    let s : State := { base with raw := 1, stable := 1, lastStable := 1, rptDeadline := 550 }
    (polled 550 s).stable ≠ 0 ∧ (polled 550 s).stable = s.lastStable ∧ (550 - s.rptDeadline).toNat < 2 ^ 31 ∧
    ¬ (549 - s.rptDeadline).toNat < 2 ^ 31 := by decide

theorem witness_PollCommitsAndWritesOnlyItsFields :
    base.initialised = true ∧ base.handler ≠ 0 ∧ base.extraCfg[0] = false ∧ base.gaps = [] := by decide

theorem witness_PollFoldsTheConfiguredKeys :
    let s : State := { base with extraCfg := #v[true, false, true], extraPin := #v[9, 0, 12], env := [true, false, true] }
    s.initialised = true ∧ s.gaps = [] ∧ s.env = [true, false] ++ [true] ∧ s.extraCfg[1] = false ∧
    [true, false].length = (([0, 1, 2] : List (Fin 3)).filter (fun k => s.extraCfg[k])).length := by decide

theorem witness_TickInsidePollIsInItsSnapshot :
    let s : State := { base with
      extraCfg := #v[true, false, true], extraPin := #v[9, 0, 12], gaps := [1], env := [true, false, true, true], idx := 4 }
    s.initialised = true ∧ s.timerEnabled = true ∧ s.gaps = List.replicate 0 0 ++ [1] ∧ [true].length = 0 + 1 ∧
    0 + 1 + [true].length = (([0, 1, 2] : List (Fin 3)).filter (fun k => s.extraCfg[k])).length ∧
    s.env = [true] ++ false :: ([true] ++ [true]) ∧ s.dbt[4] = 0 := by decide

theorem witness_PollWithoutHandlerAdvancesAlike : base.initialised = true ∧ base.handler ≠ 0 := by decide

theorem witness_AtomicFoldLosesNoTicksBit :
    Config.board.rawFold = .atomicBit ∧ (3 : Nat) ≠ (Config.board.extraKeyBit[0]).val ∧
    ({ Config.board with rawFold := .byteRmw } : Params).rawFold = .byteRmw ∧
    (let s : State := { base with gaps := [1] }
     s.timerEnabled = true ∧ s.gaps = [1] ∧ (Config.board.extraKeyBit[0]).val ≠ s.idx.val) := by decide

theorem witness_ReleasesAreSilent :
    let s : State := { base with raw := 1, stable := 3, lastStable := 3 }
    s.initialised = true ∧ exec (.poll 50) s = .next (polled 50 s) ∧ ¬ AdoptsPress s (polled 50 s).raw ∧
    s.lastStable = s.stable ∧ (∃ j : Fin 6, s.stable.getLsbD j = true ∧ (polled 50 s).stable.getLsbD j = false) :=
  ⟨rfl, rfl, by decide, rfl, by decide⟩

theorem witness_ChangeMeansALaneFlipped :
    let s : State := { base with raw := 1 }
    s.initialised = true ∧ s.lastStable = s.stable ∧ exec (.poll 50) s = .next (polled 50 s) ∧ AdoptsPress s (polled 50 s).raw :=
  ⟨rfl, rfl, rfl, by decide⟩

theorem witness_LockoutMasksBounce :
    let s : State := { base with stable := 1, lastStable := 1, dbt := #v[2, 0, 0, 0, 0, 0] }
    s.initialised = true ∧ s.timerEnabled = true ∧ .init ∉ [Instr.poll 7, .tick, .setextrakey 0 9, .poll 9] ∧
    [Instr.poll 7, .tick, .setextrakey 0 9, .poll 9].countP isPoll ≤ s.dbt[0].toNat := by decide

/-- Two POLLs with a TICK before the first; the lanes are still locked out, so `stable` stays. -/
theorem witness_HoldThenAutoRepeat :
    let s : State := { base with stable := 4, lastStable := 4, rptDeadline := 1000 + 500, dbt := #v[20, 20, 20, 20, 20, 20] }
    s.initialised = true ∧ s.timerEnabled = true ∧ s.handler ≠ 0 ∧ (4 : Byte) ≠ 0 ∧ s.stable = 4 ∧ s.lastStable = 4 ∧
    s.longPress = false ∧ s.rptDeadline = 1000 + 500 ∧ (∀ b ∈ [[Instr.tick], []], ∀ i ∈ b, betweenPolls i = true) ∧
    (∀ k, k ≤ 2 → ∀ u, runAll (pollEveryMs 1000 ([[Instr.tick], []].take k)) s = .next u → u.stable = 4) := by
  refine ⟨rfl, rfl, by decide, by decide, rfl, rfl, rfl, rfl, by decide, ?_⟩
  intro k hk u h
  match k, hk with
  | 0, _ => cases h; rfl
  | 1, _ => cases h; rfl
  | 2, _ => cases h; rfl

theorem witness_RepeatReloadFollowsTheBase :
    let s : State := { base with raw := 1, stable := 1, lastStable := 1, rptDeadline := 550 }
    let P : Params := { Config.board with repeatBase := .now }
    6 ≤ 8 ∧ s.initialised = true ∧ (pollWith P 560 s).stable ≠ 0 ∧ (pollWith P 560 s).stable = s.lastStable ∧
    reached P 560 s.rptDeadline = true ∧ P.repeatBase = .now ∧ Config.board.repeatBase = .deadline := by decide

theorem witness_SecondPressWithin200IsDouble :
    (let s : State := { base with raw := 1, lastCombo := 1, dblDeadline := 100 + 200 }
     s.initialised = true ∧ s.handler ≠ 0 ∧ s.lastStable = s.stable ∧ s.dblDeadline = 100 + 200 ∧
     (299 - 100 : Time).toNat < 2 ^ 31 ∧ AdoptsPress s (polled 299 s).raw ∧ (polled 299 s).stable = s.lastCombo ∧
     (299 - 100 : Time).toNat < 200 ∧ ¬ (300 - 100 : Time).toNat < 200) ∧
    (Instr.clear ≠ .init ∧ ¬ AdoptsPress base (polled 5 base).raw) := by decide

theorem witness_SecondPressWithin200IsDouble_exec :
    exec (.poll 5) base = .next (polled 5 base) ∧ exec (.sethandler 2) base = .next (writeHandler 2 base) ∧
    (∀ now, Instr.sethandler 2 ≠ .poll now) := ⟨rfl, rfl, by intro now h; cases h⟩

/-! A block of another size: a 16-bit clock, 4-bit counters, two digits, three slots, one extra key, four lanes (R9, D27). -/

/-- Its parameters. -/
def small : Sized.Params 16 4 2 3 1 4 where
  numMux := 3
  debounce := 9
  tDblclick := 200
  tHold := 500
  tRepeat := 50
  timeCompare := .modular
  repeatBase := .deadline
  eventCode := ⟨0x0100, 0x0200, 0x0400, 0x0800⟩
  segments := Config.segments
  dpPattern := 4
  digitFont := Config.digitFont
  letterFont := Vector.replicate 27 0
  slot4Byte := .led
  extraKeyBit := #v[3]
  pinDigit := #v[2, 3]
  pinClk := 6
  pinData := 7
  pinSwRead := 8
  digitOnLevel := true
  swPressedLevel := false
  extraPressedLevel := true
  clkIdle := false
  rawFold := .atomicBit
  tickHz := 1000

/-- Its state right after INIT, with handler 1. -/
def smallBase : Sized.State 16 4 2 3 1 4 := { initWith small (resetWith 0) with handler := 1 }

/-- Its parameters meet R10, as the board's do. -/
theorem test_small_wf : small.wf = true ∧ Config.board.wf = true := by decide

/-- Its INIT drives 2 + 3 + 2 + 2 events; SHOWNUM 42 shows 4 and 2 (R138 with two positions). -/
theorem test_small_display : smallBase.trace.length = 9 ∧
    (shownumWith small 42 0 smallBase).digit = #v[0x78, 0xB3] := by decide

/-- At slot 2, the one after its digits, a TICK enables nothing and the slot counter wraps to 0. -/
theorem test_small_tick : (tick small { smallBase with idx := 2, led := 0x1F, env := [false] }).idx = 0 := by decide

/-- POLL at W = 16: the key at lane 3, the extra one, is adopted with a 4-bit counter; DOUBLE across the 16-bit wrap. -/
theorem test_small_poll : let s : Sized.State 16 4 2 3 1 4 := { smallBase with raw := 8, lastCombo := 8, dblDeadline := 0x68 }
    (pollWith small 0xFFF0 s).dbt = #v[0, 0, 0, 9] ∧ (pollWith small 0xFFF0 s).emits = [⟨1, 0x0208⟩] := by decide

/-- Its POLL word is decoded with bits 16 to 55 reserved (R71, R81). -/
theorem test_small_step : ∃ t u,
    stepWith small { smallBase with inbox := [⟨.host, 0x300000000000FFF0, []⟩] } = .next t ∧ t.refused = false ∧
    stepWith small { smallBase with inbox := [⟨.host, 0x3000000000010000, []⟩] } = .next u ∧
    u.firstRefusal = some ⟨.reservedBits, 0x3000000000010000⟩ := ⟨_, _, rfl, by decide, rfl, by decide⟩

theorem witness_TimeComparisonIsWrapSafe :
    2 ≤ 32 ∧ Config.board.timeCompare = .modular ∧ small.timeCompare = .modular ∧ withinClockRange 32 4294967290 (4294967290 + 200) ∧
    withinClockRange 16 5 (5 + (2 ^ 15 - 1)) ∧ withinClockRange 2 10 9 := by
  refine ⟨by decide, rfl, rfl, ?_, ?_, ?_⟩ <;> unfold withinClockRange <;> decide

theorem witness_PollDebouncesEveryLaneAtAnySize :
    let s : Sized.State 16 4 2 3 1 4 := { smallBase with dbt := #v[5, 0, 0, 0], stable := 2, raw := 5 }
    4 ≤ 8 ∧ s.initialised = true ∧ s.dbt[0] ≠ 0 ∧ (pollWith small 10 s).raw.getLsbD 3 = s.stable.getLsbD 3 ∧
    (pollWith small 10 s).raw.getLsbD 2 ≠ s.stable.getLsbD 2 := by decide

theorem witness_TicksScanEverySlotAtAnySize :
    let s : Sized.State 16 4 2 3 1 4 := { smallBase with env := [true, false, true, true], idx := 1 }
    3 ≤ 8 ∧ s.timerEnabled = true ∧ s.env = [true, false, true] ++ [true] ∧ [true, false, true].length ≤ 3 ∧ 2 < [true, false, true].length := by
  decide

theorem witness_PollWordDecodesAtAnyWidth :
    16 ≤ 56 ∧ field 0x3080000000000000 56 8 = 0x30 ∧ 16 ≤ 55 ∧ 55 < 56 ∧ (0x3080000000000000 : Word).getLsbD 55 = true ∧
    field 0x3000000000010000 56 8 = 0x30 ∧ (0x3000000000010000 : Word).getLsbD 16 = true := by decide

theorem witness_OnlyOwnersWriteTheirFields :
    exec (.sethandler 7) base = .next (writeHandler 7 base) ∧ Instr.sethandler 7 ≠ .init ∧ Instr.sethandler 7 ≠ .tick ∧
    base.gaps = [] := ⟨rfl, by decide, by decide, rfl⟩

theorem base_inv : StateInv base where
  fields := ⟨by intro j _; simp [base, State.reset], by intro j _; simp [base, State.reset], by decide⟩
  classifier := ⟨rfl, fun _ => ⟨rfl, rfl⟩⟩
  control := ⟨rfl, rfl⟩
  emits := by intro e he; simp [base, State.reset] at he

theorem witness_EveryStepKeepsTheInvariant : StateInv base ∧ step base = .next base := ⟨base_inv, rfl⟩

end Sys2Proof.Tests
end

section
/-! SUPPORT. Decoding inverts encoding, on this hardware and for POLL at any clock width. -/

namespace Sys2Proof

@[simp] theorem unlessReserved_zero {α : Type} {n : Nat} (i : Except Reason α) : unlessReserved (0#n) i = i := if_pos rfl

/-- A bit set in the reserved field refuses the word, whatever the word would otherwise stand for (30_encoding.md R85 item 2). -/
theorem unlessReserved_of_bit {α : Type} {n : Nat} {r : BitVec n} {j : Nat} (h : r.getLsbD j = true)
    (i : Except Reason α) : unlessReserved r i = .error .reservedBits := by
  refine if_neg fun hr => ?_
  simp [hr] at h

/-- On the HOST port a word with POLL's opcode is POLL or refused, by the bits above the W-bit operand (30_encoding.md R81, R84). -/
theorem decodeCommand_host_of_poll (W : Nat) {c : Word} (h : field c 56 8 = 0x30) :
    decodeCommand W .host c = unlessReserved (field c W (56 - W)) (.ok (.poll (field c 0 W))) :=
  if_pos ⟨rfl, h⟩

theorem field_pollWord_opcode {W : Nat} (hW : W ≤ 56) (now : BitVec W) : field (pollWord now) 56 8 = 0x30 := by
  simp (disch := omega) [pollWord, field_place, field_place_above]

theorem field_pollWord_reserved {W : Nat} (hW : W ≤ 56) (now : BitVec W) : field (pollWord now) W (56 - W) = 0#(56 - W) := by
  simp (disch := omega) [pollWord, field_place_below, field_place_above]

theorem field_pollWord_now {W : Nat} (hW : W ≤ 56) (now : BitVec W) : field (pollWord now) 0 W = now := by
  simp (disch := omega) [pollWord, field_place, field_place_below]

/-- The TICK word is the one word TIMER delivers (30_encoding.md R82). -/
theorem encode_tick : encode .tick = tickWord := by decide

/-- Decoding inverts encoding on the command's own port: the opcode selects the command's arm, its reserved field reads 0 and
each operand field reads back (30_encoding.md R70-R84). -/
theorem decode_encode (i : Instr) (hwf : i.wellFormed = true) : decode i.port (encode i) = .ok i := by
  have opcode := field_encode_opcode i
  cases i
  case tick => exact (congrArg decodeTimer encode_tick).trans (if_pos rfl)
  all_goals
    simp only [decode, decodeHost, Instr.port, opcode, Instr.opcode]
    simp (disch := decide) [encode, Instr.operands, Instr.opcode, field_place, field_place_below, field_place_above]
  -- SETEXTRAKEY alone has a check left: its key.
  case setextrakey key pin => simpa [Instr.wellFormed] using hwf

end Sys2Proof
end

section
/-! SUPPORT. The facts of 00_scope.md at any size: the step, event words, time comparison, TICKs in a row, one POLL. -/

namespace Sys2Proof.Machine

variable {W CW ND NS NX NB : Nat}

/-! The step. -/

/-- One step on an arrival whose word decodes (00_scope.md R7, 30_encoding.md R84). -/
theorem step_of_decode {s : State} {a : Arrival} {rest : List Arrival} {i : Instr} (hin : s.inbox = a :: rest)
    (hdec : decode a.port a.word = .ok i) : step s = exec i (accept a rest s) := by
  simp only [step, hin, hdec]

/-! Event words (00_scope.md R10, 42_classifier.md R178). -/

/-- An event code has no bit in the bitmap's byte (00_scope.md R10). -/
theorem eventCode_low (k : EventKind) : (Config.board.eventCode.of k).setWidth 8 = 0#8 := by
  cases k <;> rfl

/-- The low byte of an event word is the bitmap (42_classifier.md R178). -/
theorem eventWord_low (k : EventKind) (m : Byte) : (eventWord Config.board k m).setWidth 8 = m := by
  rw [eventWord, BitVec.setWidth_or, eventCode_low, BitVec.zero_or, BitVec.setWidth_setWidth_of_le m (by decide),
    BitVec.setWidth_eq]

/-- The high byte of an event word is the event code's (42_classifier.md R178). -/
theorem eventWord_high (k : EventKind) (m : Byte) :
    (eventWord Config.board k m).extractLsb' 8 8 = (Config.board.eventCode.of k).extractLsb' 8 8 := by
  have bitmap : (m.setWidth 16).extractLsb' 8 8 = 0#8 := by
    apply BitVec.eq_of_getLsbD_eq
    simp
  rw [eventWord, BitVec.extractLsb'_or, bitmap, BitVec.or_zero]

theorem mem_eventKinds (k : EventKind) : k ∈ [EventKind.press, .double, .hold, .auto] := by
  cases k <;> decide

/-- The four codes differ in their high byte, so that byte tells the kind (00_scope.md R10). -/
theorem eventCode_high_injective {k k' : EventKind}
    (h : (Config.board.eventCode.of k).extractLsb' 8 8 = (Config.board.eventCode.of k').extractLsb' 8 8) : k = k' := by
  have codes : ([EventKind.press, .double, .hold, .auto].map
      fun k => (Config.board.eventCode.of k).extractLsb' 8 8).Nodup := by decide
  exact List.inj_on_of_nodup_map codes (mem_eventKinds k) (mem_eventKinds k') h

/-! Time comparison (00_scope.md R13). -/

/-- The order of two times is the sign of their difference modulo `2^W`, while they are less than `2^(W-1)` apart
(00_scope.md R13, 70_reset_and_hazards.md R267). -/
theorem half_le_toNat_sub_iff {W now deadline : Nat} (hW : 2 ≤ W) (hrange : withinClockRange W now deadline) :
    2 ^ (W - 1) ≤ (BitVec.ofNat W now - BitVec.ofNat W deadline).toNat ↔ now < deadline := by
  obtain ⟨hlate, hearly⟩ := hrange
  have double : 2 ^ W = 2 * 2 ^ (W - 1) := by rw [← Nat.pow_succ', Nat.succ_eq_add_one, Nat.sub_add_cancel (by omega)]
  by_cases h : now < deadline
  · obtain ⟨d, rfl⟩ := Nat.exists_eq_add_of_lt h
    have diff : BitVec.ofNat W now - BitVec.ofNat W (now + d + 1) = -BitVec.ofNat W (d + 1) := by
      rw [Nat.add_assoc, BitVec.ofNat_add]
      ring
    have dmod : (d + 1) % 2 ^ W = d + 1 := Nat.mod_eq_of_lt (by omega)
    have nmod : (2 ^ W - (d + 1)) % 2 ^ W = 2 ^ W - (d + 1) := Nat.mod_eq_of_lt (by omega)
    rw [diff, BitVec.toNat_neg, BitVec.toNat_ofNat, dmod, nmod]
    omega
  · obtain ⟨d, rfl⟩ := Nat.exists_eq_add_of_le (Nat.le_of_not_lt h)
    have diff : BitVec.ofNat W (deadline + d) - BitVec.ofNat W deadline = BitVec.ofNat W d := by
      rw [BitVec.ofNat_add]
      ring
    rw [diff, BitVec.toNat_ofNat, Nat.mod_eq_of_lt (by omega)]
    omega

/-- The MODULAR comparison (00_scope.md R13). -/
theorem before_modular {P : Sized.Params W CW ND NS NX NB} (h : P.timeCompare = .modular) (a b : BitVec W) :
    before P a b = decide (2 ^ (W - 1) ≤ (a - b).toNat) := by
  simp only [before, h]

/-! TICKs in a row (40_refresh.md R107, 20_memory.md R57). -/

@[simp] theorem tick_timerEnabled (P : Sized.Params W CW ND NS NX NB) (s : Sized.State W CW ND NS NX NB) :
    (tick P s).timerEnabled = s.timerEnabled := (tick_frame P s).timerEnabled

theorem ticks_succ (P : Sized.Params W CW ND NS NX NB) (n : Nat) {s : Sized.State W CW ND NS NX NB}
    (h : s.timerEnabled = true) : ticks P (n + 1) s = ticks P n (tick P s) := by
  simp [ticks, h]

theorem tick_idx (P : Sized.Params W CW ND NS NX NB) (s : Sized.State W CW ND NS NX NB) :
    (tick P s).idx.val = (s.idx.val + 1) % NS := by
  rw [tick_eq]; rfl

theorem tick_env (P : Sized.Params W CW ND NS NX NB) (s : Sized.State W CW ND NS NX NB) :
    (tick P s).env = s.env.tail := by rw [tick_eq]

theorem tick_raw (P : Sized.Params W CW ND NS NX NB) (s : Sized.State W CW ND NS NX NB) :
    (tick P s).raw = setBit s.raw s.idx.val (envAnswer P.pinSwRead s == P.swPressedLevel) := by rw [tick_eq]

/-- Slot k after a TICK is slot k + 1 before it (40_refresh.md R107). -/
theorem slot_after_tick (P : Sized.Params W CW ND NS NX NB) (s : Sized.State W CW ND NS NX NB) (k : Nat) :
    ((tick P s).idx.val + k) % NS = (s.idx.val + (k + 1)) % NS := by
  rw [tick_idx, Nat.mod_add_mod, Nat.add_assoc, Nat.add_comm 1 k]

/-- TICKs leave the raw bit of a slot they do not visit alone (40_refresh.md R102). -/
theorem ticks_raw_of_unvisited (P : Sized.Params W CW ND NS NX NB) (n j : Nat) (s : Sized.State W CW ND NS NX NB)
    (ht : s.timerEnabled = true) (hj : ∀ k < n, (s.idx.val + k) % NS ≠ j) :
    (ticks P n s).raw.getLsbD j = s.raw.getLsbD j := by
  induction n generalizing s with
  | zero => rfl
  | succ n ih =>
    have hidx : j ≠ s.idx.val := by
      have := hj 0 (Nat.succ_pos n)
      rw [Nat.add_zero, Nat.mod_eq_of_lt s.idx.isLt] at this
      exact this.symm
    have hrest : ∀ k < n, ((tick P s).idx.val + k) % NS ≠ j := fun k hk => by
      rw [slot_after_tick]
      exact hj (k + 1) (Nat.succ_lt_succ hk)
    rw [ticks_succ P n ht, ih (tick P s) (by simpa using ht) hrest, tick_raw, getLsbD_setBit_of_ne _ _ _ _ hidx]

/-- Fewer than NUM_SLOTS TICKs after a TICK do not come back to its slot. -/
theorem add_succ_mod_ne_self {i k : Nat} (hi : i < NS) (hk : k + 1 < NS) : (i + (k + 1)) % NS ≠ i := by
  intro h
  have hz : (k + 1) % NS = 0 := by
    have : (i + (k + 1)) ≡ i + 0 [MOD NS] := by rw [Nat.ModEq, h, Nat.add_zero, Nat.mod_eq_of_lt hi]
    exact Nat.ModEq.add_left_cancel' i this
  rw [Nat.mod_eq_of_lt hk] at hz
  exact Nat.succ_ne_zero k hz

/-- Up to NUM_SLOTS TICKs each sample their own slot's raw bit from ENV's next answer (40_refresh.md R102, R107, R110). -/
theorem ticks_raw_of_visited (P : Sized.Params W CW ND NS NX NB) (hNS : NS ≤ 8) (ls rest : List Bool)
    (s : Sized.State W CW ND NS NX NB) (ht : s.timerEnabled = true) (henv : s.env = ls ++ rest) (hlen : ls.length ≤ NS)
    (k : Nat) (h : k < ls.length) :
    (ticks P ls.length s).raw.getLsbD ((s.idx.val + k) % NS) = (ls[k] == P.swPressedLevel) := by
  induction ls generalizing s k with
  | nil => exact absurd h (Nat.not_lt_zero k)
  | cons l ls ih =>
    rw [List.length_cons] at hlen
    have ht' : (tick P s).timerEnabled = true := by simpa using ht
    rw [List.length_cons, ticks_succ P _ ht]
    cases k with
    | zero =>
      have hi := s.idx.isLt
      have unvisited : ∀ k < ls.length, ((tick P s).idx.val + k) % NS ≠ s.idx.val := fun k hk => by
        rw [slot_after_tick]
        exact add_succ_mod_ne_self hi (by omega)
      rw [Nat.add_zero, Nat.mod_eq_of_lt hi, ticks_raw_of_unvisited P _ _ _ ht' unvisited, tick_raw,
        getLsbD_setBit _ _ _ (by omega), if_pos rfl, envAnswer_cons s _ henv]
      rfl
    | succ k =>
      have henv' : (tick P s).env = ls ++ rest := by rw [tick_env, henv]; rfl
      rw [← slot_after_tick]
      exact ih (tick P s) ht' henv' (by omega) k (Nat.lt_of_succ_lt_succ h)

/-! One POLL (42_classifier.md). -/

theorem execWith_poll_initialised (P : Sized.Params W CW ND NS NX NB) (now : BitVec W)
    {s : Sized.State W CW ND NS NX NB} (h : s.initialised = true) :
    execWith P (.poll now) s = .next (pollWith P now s) := by
  simp [execWith, pollCommand, hostCommand, h]

/-- The snapshot leaves `raw` alone (42_classifier.md R162). -/
theorem snapshotStep_raw (hNB : NB ≤ 8) (P : Sized.Params W CW ND NS NX NB) (now : BitVec W)
    (s : Sized.State W CW ND NS NX NB) : (snapshotStep P now s).raw = s.raw := by
  rw [snapshotStep_rest hNB]

/-- After step 2 nothing in a POLL writes a lane's stable bit (42_classifier.md R167-R178). -/
theorem snapshotStep_stable (P : Sized.Params W CW ND NS NX NB) (now : BitVec W) (s : Sized.State W CW ND NS NX NB) :
    (snapshotStep P now s).stable = (debounce P s.raw s).1.stable := by
  simp only [snapshotStep, deliver_eq, commit]
  rw [classify_rest]

/-- After step 2 nothing in a POLL writes a lane's counter (42_classifier.md R167-R178). -/
theorem snapshotStep_dbt (P : Sized.Params W CW ND NS NX NB) (now : BitVec W) (s : Sized.State W CW ND NS NX NB) :
    (snapshotStep P now s).dbt = (debounce P s.raw s).1.dbt := by
  simp only [snapshotStep, deliver_eq, commit]
  rw [classify_rest]

/-- What classification leaves in the repeat deadline is what the POLL leaves (42_classifier.md R177, R178). -/
theorem snapshotStep_rptDeadline (P : Sized.Params W CW ND NS NX NB) (now : BitVec W)
    (s : Sized.State W CW ND NS NX NB) :
    (snapshotStep P now s).rptDeadline
      = (classify P now (debounce P s.raw s).2 (debounce P s.raw s).1).1.rptDeadline := by
  simp only [snapshotStep, deliver_eq, commit]

/-- A held combination is classified by the held branch (42_classifier.md R167, R172). -/
theorem classify_of_held (P : Sized.Params W CW ND NS NX NB) (now : BitVec W) (np : Bool)
    {s : Sized.State W CW ND NS NX NB} (h0 : s.stable ≠ 0) (hlast : s.stable = s.lastStable) :
    classify P now np s = heldBranch P now s := by
  rw [classify, if_neg h0, if_neg (not_not_intro hlast)]

/-- A due repeat reloads the deadline (42_classifier.md R172, R174). -/
theorem heldBranch_rptDeadline_of_reached {P : Sized.Params W CW ND NS NX NB} {now : BitVec W}
    {s : Sized.State W CW ND NS NX NB} (h : reached P now s.rptDeadline = true) :
    (heldBranch P now s).1.rptDeadline = reload P s.rptDeadline now := by
  rw [heldBranch, if_pos h]

/-- A due repeat of a held combination, from the state the POLL starts in (42_classifier.md R172, R174). -/
theorem pollWith_rptDeadline_of_due (hNB : NB ≤ 8) (P : Sized.Params W CW ND NS NX NB) (now : BitVec W)
    (s : Sized.State W CW ND NS NX NB) (h0 : (pollWith P now s).stable ≠ 0)
    (hlast : (pollWith P now s).stable = s.lastStable) (hdue : reached P now s.rptDeadline = true) :
    (pollWith P now s).rptDeadline = reload P s.rptDeadline now := by
  have hfold := (foldKeys_frame P (List.finRange NX) s).rest
  unfold pollWith at h0 hlast ⊢
  generalize foldKeys P (List.finRange NX) s = u at h0 hlast hfold ⊢
  have hlanes := debounce_rest hNB P u.raw u
  have last : (debounce P u.raw u).1.lastStable = s.lastStable := by rw [hlanes, hfold]
  have rpt : (debounce P u.raw u).1.rptDeadline = s.rptDeadline := by rw [hlanes, hfold]
  rw [snapshotStep_stable] at h0 hlast
  rw [snapshotStep_rptDeadline, classify_of_held P now _ h0 (hlast.trans last.symm),
    heldBranch_rptDeadline_of_reached (by rw [rpt, hdue]), rpt]

theorem reload_deadline {P : Sized.Params W CW ND NS NX NB} (h : P.repeatBase = .deadline) (d now : BitVec W) :
    reload P d now = d + P.tRepeat := by simp only [reload, h]

theorem reload_now {P : Sized.Params W CW ND NS NX NB} (h : P.repeatBase = .now) (d now : BitVec W) :
    reload P d now = now + P.tRepeat := by simp only [reload, h]

/-- Each lane of a POLL, from the lane the POLL starts with and the raw bit it takes (42_classifier.md R161-R164). -/
theorem pollWith_lane (hNB : NB ≤ 8) (P : Sized.Params W CW ND NS NX NB) (now : BitVec W)
    (s : Sized.State W CW ND NS NX NB) (j : Fin NB) :
    (pollWith P now s).dbt[j] = (laneAt P (pollWith P now s).raw s j).dbt ∧
      (pollWith P now s).stable.getLsbD j = (laneAt P (pollWith P now s).raw s j).stable := by
  have hfold := (foldKeys_frame P (List.finRange NX) s).rest
  unfold pollWith
  generalize foldKeys P (List.finRange NX) s = u at hfold ⊢
  have own : laneAt P u.raw u j = laneAt P u.raw s j := by rw [hfold]; rfl
  rw [snapshotStep_raw hNB, snapshotStep_dbt, snapshotStep_stable, ← own]
  exact debounce_lane hNB P u.raw u j

/-- A POLL leaves the stable bits above the lanes alone (42_classifier.md R163). -/
theorem pollWith_stable_above (hNB : NB ≤ 8) (P : Sized.Params W CW ND NS NX NB) (now : BitVec W)
    (s : Sized.State W CW ND NS NX NB) (n : Nat) (h : NB ≤ n) :
    (pollWith P now s).stable.getLsbD n = s.stable.getLsbD n := by
  have hfold := (foldKeys_frame P (List.finRange NX) s).rest
  rw [pollWith, snapshotStep_stable, debounce_above hNB P _ _ n h, hfold]

end Sys2Proof.Machine
end

section
/-! PROOFS. The obligations of 00_scope.md. -/

namespace Sys2Proof

open Sys2Proof.Machine

/-- Settles O5: the three fields of the POLL word read back, and a bit above the operand stands in the reserved field. -/
theorem pollWordDecodesAtAnyWidth : Obligations.PollWordDecodesAtAnyWidth := by
  intro W hW
  constructor
  · intro now
    rw [decodeCommand_host_of_poll W (field_pollWord_opcode hW now),
      field_pollWord_reserved hW, unlessReserved_zero, field_pollWord_now hW]
  · intro c j hop hWj hj hbit
    have reserved : (field c W (56 - W)).getLsbD (j - W) = true := by
      rw [getLsbD_field c W (56 - W) (j - W) (by omega), Nat.add_sub_cancel' hWj, hbit]
    rw [decodeCommand_host_of_poll W hop, unlessReserved_of_bit reserved]

/-- Settles O49: a due repeat of a held combination leaves the reload, whichever base it has. -/
theorem repeatReloadFollowsTheBase : Obligations.RepeatReloadFollowsTheBase := by
  intro W CW ND NS NX NB P now s hNB hinit
  refine ⟨pollWith P now s, execWith_poll_initialised P now hinit, fun h0 hlast hdue => ?_⟩
  rw [pollWith_rptDeadline_of_due hNB P now s h0 hlast hdue]
  exact ⟨fun hb => reload_deadline hb _ _, fun hb => reload_now hb _ _⟩

/-- Settles O50: each lane ends with the lane rule of its own counter, raw bit and stable bit, split on the lockout. -/
theorem pollDebouncesEveryLaneAtAnySize : Obligations.PollDebouncesEveryLaneAtAnySize := by
  intro W CW ND NS NX NB P now s hNB hinit
  refine ⟨pollWith P now s, execWith_poll_initialised P now hinit, fun j => ?_, pollWith_stable_above hNB P now s⟩
  obtain ⟨hdbt, hstable⟩ := pollWith_lane hNB P now s j
  rw [hdbt, hstable, laneAt]
  by_cases hlock : s.dbt[j] = 0
  · rw [if_neg (not_not_intro hlock), hlock, laneStep_open]
    split
    · next heq => exact ⟨rfl, heq⟩
    · next hne => exact ⟨rfl, rfl⟩
  · rw [if_pos hlock, laneStep_locked P _ _ _ hlock]
    exact ⟨rfl, rfl⟩

/-- Settles O51: within one turn every slot is visited at most once, so what its TICK sampled stands. -/
theorem ticksScanEverySlotAtAnySize : Obligations.TicksScanEverySlotAtAnySize := by
  intro W CW ND NS NX NB P s ls rest hNS ht henv hlen
  exact ⟨ticks_idx P ls.length s ht, ticks_raw_of_visited P hNS ls rest s ht henv hlen, (ticks_frame P ls.length s).high⟩

/-- Settles O53: under MODULAR `before` tests the sign of the difference, which is the order in real time within the range. -/
theorem timeComparisonIsWrapSafe : Obligations.TimeComparisonIsWrapSafe := by
  intro W CW ND NS NX NB P now deadline hW hmod hrange
  have hbefore : before P (BitVec.ofNat W now) (BitVec.ofNat W deadline) = decide (now < deadline) := by
    rw [before_modular hmod, decide_eq_decide]
    exact half_le_toNat_sub_iff hW hrange
  refine ⟨hbefore, ?_⟩
  rw [reached_eq, hbefore, ← decide_not, decide_eq_decide]
  exact Nat.not_lt

/-- Settles O54: the word's low byte is the bitmap, and its high byte tells the kind. -/
theorem eventWordIsSeparable : Obligations.EventWordIsSeparable := by
  intro k k' m m'
  refine ⟨eventWord_low k m, fun h => ⟨?_, ?_⟩⟩
  · apply eventCode_high_injective
    rw [← eventWord_high k m, ← eventWord_high k' m', h]
  · rw [← eventWord_low k m, ← eventWord_low k' m', h]

/-- Settles O8: the step's one decoding arm, and that a well-formed command's word decodes to the command. -/
theorem stepRunsTheDecodedCommand : Obligations.StepRunsTheDecodedCommand := by
  constructor
  · intro s a rest i hin hdec
    exact step_of_decode hin hdec
  · intro s i g rest hwf hin
    exact step_of_decode hin (decode_encode i hwf)

/-- Settles O18 by evaluating each constraint at the board's values; none of them reads an OPEN parameter. -/
theorem boardMeetsTheConstraints : Obligations.BoardMeetsTheConstraints := by
  unfold Obligations.BoardMeetsTheConstraints
  decide

end Sys2Proof
end

section
/-! SUPPORT. The step and HOST's commands by equations, and what happens before INIT. -/

namespace Sys2Proof.Machine

variable {W CW ND NS NX NB : Nat}

/-! The step and HOST's commands. -/

/-- One step with nothing arriving (70_reset_and_hazards.md R252). -/
theorem step_of_idle {s : State} (hin : s.inbox = []) : step s = .next s := by
  simp only [step, hin]

/-- One step on an arrival whose word does not decode (60_exceptions.md R221). -/
theorem step_of_refused {s : State} {a : Arrival} {rest : List Arrival} {r : Reason} (hin : s.inbox = a :: rest)
    (hdec : decode a.port a.word = .error r) : step s = .next (refuse r a.word (accept a rest s)) := by
  simp only [step, hin, hdec]

theorem hostCommand_of_initialised (c : Word) (f : Sized.State W CW ND NS NX NB → Sized.State W CW ND NS NX NB)
    {s : Sized.State W CW ND NS NX NB} (h : s.initialised = true) : hostCommand c f s = .next (f s) :=
  if_pos h

theorem hostCommand_of_uninitialised (c : Word) (f : Sized.State W CW ND NS NX NB → Sized.State W CW ND NS NX NB)
    {s : Sized.State W CW ND NS NX NB} (h : s.initialised = false) :
    hostCommand c f s = .next (refuse .notInitialised c s) := by
  rw [hostCommand, if_neg (Bool.eq_false_iff.mp h)]

theorem exec_poll_of_initialised (now : Time) {s : State} (h : s.initialised = true) :
    exec (.poll now) s = .next (pollWith Config.board now s) :=
  hostCommand_of_initialised _ _ h

/-! Before INIT (60_exceptions.md R222). -/

/-- Before INIT a command other than INIT and TICK is refused, for a reason and with a word that the command alone fixes
(60_exceptions.md R222; log 16). -/
theorem exec_refused_before_init (i : Instr) (hinit : i ≠ .init) (htick : i ≠ .tick) :
    ∃ r c, ∀ s : State, s.initialised = false → exec i s = .next (refuse r c s) := by
  cases i with
  | init => exact absurd rfl hinit
  | tick => exact absurd rfl htick
  | setextrakey key pin =>
    simp only [exec, execSetextrakey, setextrakeyCommand]
    cases keyIndex key with
    | none => exact ⟨_, _, fun s _ => rfl⟩
    | some k => exact ⟨_, _, fun s h => hostCommand_of_uninitialised _ _ h⟩
  | _ => exact ⟨_, _, fun s h => hostCommand_of_uninitialised _ _ h⟩

/-- While TIMER is disabled it has no step (40_refresh.md R101; log 7). -/
theorem exec_tick_of_disabled {s : State} (h : s.timerEnabled = false) : exec .tick s = .fault .timerDisabled :=
  if_neg (Bool.eq_false_iff.mp h)

theorem outputs_eq_iff (s u : State) :
    s.outputs = u.outputs ↔ s.trace = u.trace ∧ s.emits = u.emits ∧ s.refused = u.refused :=
  Outputs.mk.injEq .. |>.to_iff

theorem SameControl.accept {s u : State} (h : SameControl s u) (a : Arrival) (rest : List Arrival) :
    SameControl (accept a rest s) (accept a rest u) :=
  ⟨h.initialised, h.timerEnabled, h.firstRefusal, h.outputs, rfl, rfl, h.env, h.draws⟩

/-- A refusal writes the mark and the record alone, and reads the record alone (60_exceptions.md R221, R223). -/
theorem SameControl.refuse {s u : State} (h : SameControl s u) (r : Reason) (c : Word) :
    SameControl (refuse r c s) (refuse r c u) := by
  obtain ⟨htrace, hemits, -⟩ := (outputs_eq_iff s u).mp h.outputs
  exact ⟨h.initialised, h.timerEnabled, by simp only [Machine.refuse, h.firstRefusal],
    (outputs_eq_iff _ _).mpr ⟨htrace, hemits, rfl⟩, h.inbox, h.gaps, h.env, h.draws⟩

/-- INIT writes every field without a power-on value and reads none of them (43_control.md R201). -/
theorem initWith_eq_of_sameControl (P : Params) {s u : State} (h : SameControl s u) : initWith P s = initWith P u := by
  obtain ⟨htrace, hemits, hrefused⟩ := (outputs_eq_iff s u).mp h.outputs
  simp only [initWith, initState, drive, htrace, hemits, hrefused, h.firstRefusal, h.inbox, h.gaps, h.env, h.draws]

/-- What two runs answer while no power-on value shows: the same fault, or states alike that are equal once INIT has run. -/
def StayAlike (o o' : Host.Outcome State Fault Refusal) : Prop :=
  (∃ t v, o = .next t ∧ o' = .next v ∧ SameControl t v ∧ (t.initialised = true → t = v)) ∨
    ∃ f, o = .fault f ∧ o' = .fault f

theorem StayAlike.of_uninitialised {s u : State} (h : SameControl s u) (hs : s.initialised = false) :
    StayAlike (.next s) (.next u) :=
  .inl ⟨s, u, rfl, rfl, h, fun ht => absurd (hs.symm.trans ht) Bool.false_ne_true⟩

/-- Every command before INIT: INIT, a TICK that TIMER does not take, or a refusal. -/
theorem exec_stayAlike (i : Instr) {s u : State} (h : SameControl s u) (hs : s.initialised = false)
    (htimer : s.timerEnabled = false) : StayAlike (exec i s) (exec i u) := by
  by_cases hinit : i = .init
  · subst hinit
    have heq : exec .init u = exec .init s := congrArg Host.Outcome.next (initWith_eq_of_sameControl Config.board h).symm
    rw [heq]
    exact .inl ⟨_, _, rfl, rfl, ⟨rfl, rfl, rfl, rfl, rfl, rfl, rfl, rfl⟩, fun _ => rfl⟩
  by_cases htick : i = .tick
  · subst htick
    exact .inr ⟨_, exec_tick_of_disabled htimer, exec_tick_of_disabled (h.timerEnabled ▸ htimer)⟩
  · obtain ⟨r, c, hrefused⟩ := exec_refused_before_init i hinit htick
    rw [hrefused s hs, hrefused u (h.initialised ▸ hs)]
    exact .of_uninitialised (h.refuse r c) hs

theorem step_stayAlike {s u : State} (h : SameControl s u) (hs : s.initialised = false)
    (htimer : s.timerEnabled = false) : StayAlike (step s) (step u) := by
  cases hin : s.inbox with
  | nil =>
    rw [step_of_idle hin, step_of_idle (h.inbox ▸ hin)]
    exact .of_uninitialised h hs
  | cons a rest =>
    have hin' : u.inbox = a :: rest := h.inbox ▸ hin
    have hacc := h.accept a rest
    cases hdec : decode a.port a.word with
    | error r =>
      rw [step_of_refused hin hdec, step_of_refused hin' hdec]
      exact .of_uninitialised (hacc.refuse r a.word) hs
    | ok i =>
      rw [step_of_decode hin hdec, step_of_decode hin' hdec]
      exact exec_stayAlike i hacc hs htimer

end Sys2Proof.Machine
end

section
/-! SUPPORT. What one POLL can do to the fields the state invariant reads, and that every command keeps the invariant. -/

namespace Sys2Proof.Machine

variable {W CW ND NS NX NB : Nat}

/-! One POLL's lanes (10_state.md R25, R26, R34). -/

/-- The lane rule never takes a counter above DEBOUNCE (10_state.md R25, 42_classifier.md R164). -/
theorem laneStep_dbt_le (P : Sized.Params W CW ND NS NX NB) (d : BitVec CW) (r st : Bool)
    (h : d.toNat ≤ P.debounce.toNat) : (laneStep P d r st).dbt.toNat ≤ P.debounce.toNat := by
  by_cases hd : d = 0
  · subst hd
    rw [laneStep_open]
    split
    · exact h
    · exact Nat.le_refl _
  · rw [laneStep_locked P d r st hd]
    have hone : 1 ≤ d.toNat := Nat.one_le_iff_ne_zero.mpr fun e => hd (BitVec.eq_of_toNat_eq (by simpa using e))
    have hle : 1#CW ≤ d := (Nat.mod_le 1 (2 ^ CW)).trans hone
    calc (d - 1#CW).toNat = d.toNat - (1#CW).toNat := BitVec.toNat_sub_of_le hle
      _ ≤ d.toNat := Nat.sub_le _ _
      _ ≤ P.debounce.toNat := h

/-- `stable` changes exactly when a lane's bit does, since a POLL leaves the bits above the lanes alone
(10_state.md R34 item 4). -/
theorem pollWith_stable_ne_iff (hNB : NB ≤ 8) (P : Sized.Params W CW ND NS NX NB) (now : BitVec W)
    (s : Sized.State W CW ND NS NX NB) :
    (pollWith P now s).stable ≠ s.stable ↔
      ∃ j : Fin NB, (pollWith P now s).stable.getLsbD j ≠ s.stable.getLsbD j := by
  constructor
  · contrapose!
    intro hlanes
    apply BitVec.eq_of_getLsbD_eq
    intro n _
    by_cases hn : n < NB
    · exact hlanes ⟨n, hn⟩
    · exact pollWith_stable_above hNB P now s n (Nat.le_of_not_lt hn)
  · rintro ⟨j, hj⟩ heq
    exact hj (by rw [heq])

/-- A lane that adopts a press flips (10_state.md R34 item 5, 42_classifier.md R164). -/
theorem pollWith_lane_flips_of_adoptsPress (now : Time) (s : State)
    (h : AdoptsPress s (pollWith Config.board now s).raw) :
    ∃ j : Fin 6, (pollWith Config.board now s).stable.getLsbD j ≠ s.stable.getLsbD j := by
  obtain ⟨j, hopen, hdown, hup⟩ := h
  refine ⟨j, ?_⟩
  rw [(pollWith_lane (by decide) Config.board now s j).2, laneAt, hopen, laneStep_open, hdown, hup]
  decide

/-! What one POLL leaves of the classifier and the deliveries (10_state.md R27, R34). -/

/-- A POLL remembers the old combination or the one now down (10_state.md R27, 42_classifier.md R169). -/
theorem pollWith_lastCombo (now : Time) (s : State) :
    (pollWith Config.board now s).lastCombo = s.lastCombo ∨
      (pollWith Config.board now s).lastCombo = (pollWith Config.board now s).stable := by
  obtain ⟨u, -, -, -, -, -, -, -, -, hzero | hchange | hheld⟩ := poll_cases now s
  · obtain ⟨-, -, -, hcombo, -⟩ := hzero
    exact .inl hcombo
  · obtain ⟨-, -, -, -, ⟨-, hcombo, -⟩ | ⟨-, hcombo, -⟩⟩ := hchange
    · exact .inr hcombo
    · exact .inl hcombo
  · obtain ⟨-, -, hcombo, -⟩ := hheld
    exact .inl hcombo

/-- With no key down a POLL leaves no repeat pending (10_state.md R34 item 6, 42_classifier.md R167). -/
theorem pollWith_idle (now : Time) (s : State) (h0 : (pollWith Config.board now s).stable = 0) :
    (pollWith Config.board now s).rptDeadline = 0 ∧ (pollWith Config.board now s).longPress = false := by
  obtain ⟨u, -, -, -, -, -, -, -, -, hzero | hchange | hheld⟩ := poll_cases now s
  · obtain ⟨-, hlong, hrpt, -⟩ := hzero
    exact ⟨hrpt, hlong⟩
  · exact absurd h0 hchange.1
  · exact absurd h0 hheld.1

/-- A POLL delivers nothing, or one event on the nonzero combination it leaves (42_classifier.md R167, R178). -/
theorem pollWith_emits (now : Time) (s : State) :
    (pollWith Config.board now s).emits = s.emits ∨
      (pollWith Config.board now s).stable ≠ 0 ∧ ∃ k, (pollWith Config.board now s).emits =
        s.emits ++ delivered s.handler k (pollWith Config.board now s).stable := by
  obtain ⟨u, -, -, -, -, -, -, -, -, hzero | hchange | hheld⟩ := poll_cases now s
  · obtain ⟨-, -, -, -, -, hemits⟩ := hzero
    exact .inl hemits
  · obtain ⟨h0, -, -, -, ⟨-, -, -, hemits⟩ | ⟨-, -, -, hemits⟩⟩ := hchange
    · exact .inr ⟨h0, _, hemits⟩
    · exact .inl hemits
  · obtain ⟨h0, -, -, -, ⟨-, -, -, hemits⟩ | ⟨-, -, -, hemits⟩⟩ := hheld
    · exact .inr ⟨h0, _, hemits⟩
    · exact .inl hemits

/-- A POLL commits the combination it leaves (42_classifier.md R177). -/
theorem pollWith_lastStable (P : Sized.Params W CW ND NS NX NB) (now : BitVec W) (s : Sized.State W CW ND NS NX NB) :
    (pollWith P now s).lastStable = (pollWith P now s).stable := by
  rw [pollWith, snapshotStep, deliver_eq, commit]

/-! The state invariant (10_state.md R34). -/

/-- The invariant reads neither the display, the raw samples, the scan position, the double-click deadline, the handler
slot, the extra keys, the trace nor the input fields, so it holds whatever they become. -/
theorem StateInv.of_rest {s t : State} (h : StateInv s)
    (hrest : t = { s with
      digit := t.digit, led := t.led, raw := t.raw, idx := t.idx, dblDeadline := t.dblDeadline, handler := t.handler
      extraCfg := t.extraCfg, extraPin := t.extraPin, trace := t.trace, inbox := t.inbox, gaps := t.gaps, env := t.env
      draws := t.draws }) : StateInv t := by
  obtain ⟨⟨hstable, hcombo, hdbt⟩, ⟨hlast, hidle⟩, ⟨htimer, hmark⟩, hemits⟩ := h
  rw [hrest]
  exact ⟨⟨hstable, hcombo, hdbt⟩, ⟨hlast, hidle⟩, ⟨htimer, hmark⟩, hemits⟩

theorem StateInv.of_tickFrame {s t : State} (h : StateInv s) (f : TickFrame s t) : StateInv t :=
  h.of_rest (by rw [f.rest])

/-- A refusal sets the mark and has a record (60_exceptions.md R223). -/
theorem StateInv.refuse {s : State} (h : StateInv s) (r : Reason) (c : Word) : StateInv (refuse r c s) := by
  obtain ⟨⟨hstable, hcombo, hdbt⟩, ⟨hlast, hidle⟩, ⟨htimer, -⟩, hemits⟩ := h
  exact ⟨⟨hstable, hcombo, hdbt⟩, ⟨hlast, hidle⟩, ⟨htimer, (refuse_firstRefusal_isSome s r c).symm⟩, hemits⟩

/-- A HOST command keeps the invariant if its effect does. -/
theorem StateInv.hostCommand {s t : State} {c : Word} {f : State → State} (h : StateInv s) (hf : StateInv (f s))
    (ht : hostCommand c f s = .next t) : StateInv t := by
  cases hi : s.initialised with
  | true =>
    rw [hostCommand_of_initialised c f hi] at ht
    cases ht
    exact hf
  | false =>
    rw [hostCommand_of_uninitialised c f hi] at ht
    cases ht
    exact h.refuse _ _

/-- Atomic steps that keep the invariant keep it with TICKs between them (20_memory.md R57). -/
theorem StateInv.inOrder (P : Params) (fs : List (State → State)) (hfs : ∀ f ∈ fs, ∀ s, StateInv s → StateInv (f s))
    {s : State} (h : StateInv s) : StateInv (inOrder P fs s) := by
  induction fs generalizing s with
  | nil => exact h
  | cons a rest ih =>
    have ha : StateInv (a s) := hfs a (by simp) s h
    cases rest with
    | nil => exact ha
    | cons b rest => exact ih (fun f hf => hfs f (by simp [hf])) (ha.of_tickFrame (gap_frame P (a s)))

theorem StateInv.writeDigits (P : Params) (ps : List (Fin 4)) (pattern : Fin 4 → Byte) {s : State} (h : StateInv s) :
    StateInv (writeDigits P ps pattern s) := by
  refine StateInv.inOrder P _ (fun f hf u hu => ?_) h
  obtain ⟨p, -, rfl⟩ := List.mem_map.mp hf
  exact hu.of_rest rfl

/-- INIT clears every lane's counter (43_control.md R201). -/
theorem initWith_dbt (P : Sized.Params W CW ND NS NX NB) (s : Sized.State W CW ND NS NX NB) (j : Fin NB) :
    (initWith P s).dbt[j] = 0 :=
  Vector.getElem_replicate j.isLt

/-- INIT writes legal values, settles the classifier and keeps the mark, its record and the deliveries (43_control.md R201). -/
theorem StateInv.initWith (P : Params) {s : State} (h : StateInv s) : StateInv (initWith P s) where
  fields := ⟨fun _ _ => BitVec.getLsbD_zero, fun _ _ => BitVec.getLsbD_zero, fun j => by
    rw [initWith_dbt]
    exact Nat.zero_le _⟩
  classifier := ⟨rfl, fun _ => ⟨rfl, rfl⟩⟩
  control := ⟨rfl, h.control.mark_iff_record⟩
  emits := h.emits

/-- What a handler is delivered for a nonzero bitmap of the six lanes is legal (42_classifier.md R163, R178). -/
theorem emitsLegal_of_delivered {s t : State} {h : HandlerId} {k : EventKind} {combo : Byte} (hs : EmitsLegal s)
    (h0 : combo ≠ 0) (hlanes : ∀ j, 6 ≤ j → combo.getLsbD j = false)
    (ht : t.emits = s.emits ++ delivered h k combo) : EmitsLegal t := by
  intro e he
  rw [ht, List.mem_append] at he
  rcases he with he | he
  · exact hs e he
  · unfold delivered at he
    split at he
    · cases he
    · next hh =>
      cases List.mem_singleton.mp he
      exact ⟨hh, k, combo, h0, hlanes, rfl⟩

theorem StateInv.pollWith (now : Time) {s : State} (h : StateInv s) : StateInv (pollWith Config.board now s) := by
  obtain ⟨⟨hstable, hcombo, hdbt⟩, -, ⟨htimer, hmark⟩, hemits⟩ := h
  have hrest := pollWith_rest Config.board now s
  have lanes : ∀ j, 6 ≤ j → (Machine.pollWith Config.board now s).stable.getLsbD j = false := fun j hj =>
    (pollWith_stable_above (by decide) Config.board now s j hj).trans (hstable j hj)
  refine ⟨⟨lanes, fun j hj => ?_, fun j => ?_⟩, ⟨pollWith_lastStable _ now s, pollWith_idle now s⟩, ?_, ?_⟩
  · rcases pollWith_lastCombo now s with hc | hc
    · rw [hc, hcombo j hj]
    · rw [hc, lanes j hj]
  · rw [(pollWith_lane (by decide) Config.board now s j).1]
    exact laneStep_dbt_le _ _ _ _ (hdbt j)
  · rw [hrest]
    exact ⟨htimer, hmark⟩
  · rcases pollWith_emits now s with hnone | ⟨h0, k, hone⟩
    · rwa [EmitsLegal, hnone]
    · exact emitsLegal_of_delivered hemits h0 lanes hone

/-- Every command that answers a next state keeps the invariant. -/
theorem StateInv.exec {i : Instr} {s t : State} (h : StateInv s) (ht : exec i s = .next t) : StateInv t := by
  cases i with
  | init =>
    cases ht
    exact h.initWith _
  | sethandler x => exact h.hostCommand (h.of_rest rfl) ht
  | setextrakey key pin =>
    simp only [Machine.exec, execSetextrakey, setextrakeyCommand] at ht
    split at ht
    · cases ht
      exact h.refuse _ _
    · exact h.hostCommand (h.of_rest rfl) ht
  | showSegs d0 d1 d2 d3 => exact h.hostCommand (h.writeDigits _ _ _) ht
  | shownum n start => exact h.hostCommand (h.writeDigits _ _ _) ht
  | clear => exact h.hostCommand (h.writeDigits _ _ _) ht
  | setleds bits mask =>
    refine h.hostCommand (StateInv.inOrder _ _ (fun f hf u hu => ?_) h) ht
    rcases List.mem_pair.mp hf with rfl | rfl <;> exact hu.of_rest rfl
  | clearleds mask => exact h.hostCommand (h.of_rest rfl) ht
  | poll now => exact h.hostCommand (h.pollWith now) ht
  | tick =>
    simp only [Machine.exec, execTick, timerTick] at ht
    split at ht
    · cases ht
      exact h.of_tickFrame (tick_frame _ s)
    · cases ht

end Sys2Proof.Machine
end

section
/-! PROOFS. The obligations of 10_state.md. -/

namespace Sys2Proof

open Sys2Proof.Machine

/-- Settles O15: before INIT a step only takes the arrival and records a refusal, whatever the other fields hold, and INIT
writes all of them. -/
theorem powerOnValuesAreUnobservable : Obligations.PowerOnValuesAreUnobservable := by
  intro s u h hs htimer
  rcases step_stayAlike h hs htimer with ⟨t, v, ht, hv, halike⟩ | ⟨f, ht, hv⟩
  · rw [ht, hv]
    exact halike
  · rw [ht, hv]

/-- Settles O57: taking the arrival touches only input fields, and then a refusal or the command keeps the invariant. -/
theorem everyStepKeepsTheInvariant : Obligations.EveryStepKeepsTheInvariant := by
  intro s t h ht
  cases hin : s.inbox with
  | nil =>
    rw [step_of_idle hin] at ht
    cases ht
    exact h
  | cons a rest =>
    have hacc : StateInv (accept a rest s) := h.of_rest rfl
    cases hdec : decode a.port a.word with
    | error r =>
      rw [step_of_refused hin hdec] at ht
      cases ht
      exact hacc.refuse r a.word
    | ok i =>
      rw [step_of_decode hin hdec] at ht
      exact hacc.exec ht

/-- Settles O46: a POLL changes `stable` in the lanes alone, and a lane that adopts a press flips. -/
theorem changeMeansALaneFlipped : Obligations.ChangeMeansALaneFlipped := by
  intro now s t hinit hlast ht
  rw [exec_poll_of_initialised now hinit] at ht
  obtain rfl := Host.Outcome.next.inj ht
  rw [hlast]
  have changed := pollWith_stable_ne_iff (by decide) Config.board now s
  exact ⟨changed, fun hpress => changed.mpr (pollWith_lane_flips_of_adoptsPress now s hpress)⟩

/-- Settles O56: at power-on every field the invariant reads holds 0, false or nothing (10_state.md R33; log 1). -/
theorem powerOnMeetsTheInvariant : Obligations.PowerOnMeetsTheInvariant := by
  unfold Obligations.PowerOnMeetsTheInvariant
  refine ⟨⟨?_, ?_, ?_⟩, ⟨rfl, fun _ => ⟨rfl, rfl⟩⟩, ⟨rfl, rfl⟩, ?_⟩
  · exact fun _ _ => BitVec.getLsbD_zero
  · exact fun _ _ => BitVec.getLsbD_zero
  · decide
  · intro e he
    cases he

end Sys2Proof
end

section
/-! SUPPORT. Command words as bytes (20_memory.md R52). -/

namespace Sys2Proof

/-- Byte k of a word is its bits [8k+7:8k] (R52). -/
theorem bytesOfWord_eq_map (c : Word) : bytesOfWord c = (List.range 8).map (fun k => field c (8 * k) 8) := rfl

/-- Two fields side by side, put together, are one field. -/
theorem field_append_field (c : Word) (lo m n : Nat) :
    field c (lo + m) n ++ field c lo m = field c lo (n + m) := by
  apply BitVec.eq_of_getLsbD_eq
  intro j hj
  rw [BitVec.getLsbD_append, getLsbD_field _ _ _ _ hj]
  by_cases h : j < m
  · rw [if_pos h, getLsbD_field _ _ _ _ h]
  · rw [if_neg h, getLsbD_field _ _ _ _ (by omega), Nat.add_assoc, Nat.add_sub_cancel' (Nat.le_of_not_lt h)]

/-- A word's own bytes hold the word, whatever bytes follow (R52). -/
theorem takeWord_bytesOfWord (c : Word) (rest : List Byte) : takeWord (bytesOfWord c ++ rest) = some (c, rest) := by
  have whole : field c 56 8 ++ field c 48 8 ++ field c 40 8 ++ field c 32 8 ++ field c 24 8 ++ field c 16 8 ++
      field c 8 8 ++ field c 0 8 = c := by
    rw [field_append_field c 48 8 8, field_append_field c 40 8 16, field_append_field c 32 8 24,
      field_append_field c 24 8 32, field_append_field c 16 8 40, field_append_field c 8 8 48,
      field_append_field c 0 8 56]
    exact BitVec.extractLsb'_eq_self
  exact congrArg (fun w => some (w, rest)) whole

/-- Fewer than eight bytes hold no word (30_encoding.md R70; log 15). -/
theorem takeWord_short (bs : List Byte) (h : bs.length < 8) : takeWord bs = none := by
  unfold takeWord
  split
  · simp only [List.length_cons] at h
    omega
  · rfl

theorem decodeBytes_of_ok {p : Port} {c : Word} {i : Instr} (h : decode p c = .ok i) (rest : List Byte) :
    decodeBytes p (bytesOfWord c ++ rest) = .ok (i, rest) := by
  simp only [decodeBytes, takeWord_bytesOfWord, h]

theorem decodeBytes_of_error {p : Port} {c : Word} {r : Reason} (h : decode p c = .error r) (rest : List Byte) :
    decodeBytes p (bytesOfWord c ++ rest) = .error (.refused r) := by
  simp only [decodeBytes, takeWord_bytesOfWord, h]

theorem decodeBytes_short (p : Port) (bs : List Byte) (h : bs.length < 8) : decodeBytes p bs = .error .incomplete := by
  simp only [decodeBytes, takeWord_short bs h]

end Sys2Proof
end

section
/-! SUPPORT. HOST's commands between whose atomic steps no TICK falls, and their repetition (20_memory.md R57, R62). -/

namespace Sys2Proof.Machine

variable {W CW ND NS NX NB : Nat}

/-! Digit writes. -/

/-- The digits after the pattern is written at the positions `ps`, in their order. -/
def digitsWritten (ps : List (Fin ND)) (pattern : Fin ND → Byte) (d : Vector Byte ND) : Vector Byte ND :=
  ps.foldl (fun d p => d.set p.val (pattern p)) d

/-- A position written holds the pattern, any other what it held. -/
theorem getElem_digitsWritten (ps : List (Fin ND)) (pattern : Fin ND → Byte) (d : Vector Byte ND) (q : Fin ND) :
    (digitsWritten ps pattern d)[q] = if q ∈ ps then pattern q else d[q] := by
  induction ps generalizing d with
  | nil => rfl
  | cons p ps ih =>
    have hset : (d.set p.val (pattern p))[q] = if q = p then pattern q else d[q] := by
      by_cases h : q = p
      · subst h
        simp
      · rw [if_neg h]
        exact Vector.getElem_set_ne p.isLt q.isLt fun e => h (Fin.ext e.symm)
    refine (ih _).trans ?_
    by_cases hq : q ∈ ps <;> simp [hq, hset]

/-- Writing the same pattern at the same positions again changes nothing. -/
theorem digitsWritten_idem (ps : List (Fin ND)) (pattern : Fin ND → Byte) (d : Vector Byte ND) :
    digitsWritten ps pattern (digitsWritten ps pattern d) = digitsWritten ps pattern d := by
  apply Vector.ext
  intro q hq
  have h := getElem_digitsWritten ps pattern (digitsWritten ps pattern d) ⟨q, hq⟩
  have h' := getElem_digitsWritten ps pattern d ⟨q, hq⟩
  simp only [Fin.getElem_fin] at h h'
  rw [h, h']
  split <;> rfl

/-- With no TICK inside, digit writes change the digits alone (20_memory.md R57). -/
theorem writeDigits_quiet (P : Sized.Params W CW ND NS NX NB) (ps : List (Fin ND)) (pattern : Fin ND → Byte)
    {s : Sized.State W CW ND NS NX NB} (h : s.gaps = []) :
    writeDigits P ps pattern s = { s with digit := digitsWritten ps pattern s.digit } := by
  have hgaps : ∀ f ∈ ps.map (fun p => writeDigit p (pattern p)), ∀ u : Sized.State W CW ND NS NX NB,
      (f u).gaps = u.gaps := by
    intro f hf u
    obtain ⟨p, -, rfl⟩ := List.mem_map.mp hf
    rfl
  rw [writeDigits, inOrder_quiet P _ hgaps s h, List.foldl_map]
  clear h hgaps
  induction ps generalizing s with
  | nil => rfl
  | cons p ps ih => exact ih (s := writeDigit p (pattern p) s)

/-! The LED writes. -/

theorem setledsWith_eq (P : Sized.Params W CW ND NS NX NB) (bits mask : Byte) (s : Sized.State W CW ND NS NX NB) :
    setledsWith P bits mask s = setLedBits bits (gap P (clearLedBits mask s)) := rfl

/-- SETLEDS leaves the bits written, and otherwise what the TICKs at its boundary leave (41_display.md R150). -/
theorem setledsWith_frame (P : Sized.Params W CW ND NS NX NB) (bits mask : Byte) (s : Sized.State W CW ND NS NX NB) :
    TickFrame { s with led := s.led &&& ~~~mask ||| bits } (setledsWith P bits mask s) := by
  obtain ⟨hrest, hhigh, hgrows⟩ := gap_frame P (clearLedBits mask s)
  rw [setledsWith_eq]
  exact ⟨by rw [hrest]; rfl, hhigh, hgrows⟩

theorem setledsWith_quiet (P : Sized.Params W CW ND NS NX NB) (bits mask : Byte) {s : Sized.State W CW ND NS NX NB}
    (h : s.gaps = []) : setledsWith P bits mask s = { s with led := s.led &&& ~~~mask ||| bits } := by
  rw [setledsWith_eq, gap_nil P (clearLedBits mask s) h]
  rfl

/-- Clearing a mask and setting bits twice is doing it once, bit by bit. -/
theorem clear_set_idem (v bits mask : Byte) :
    (v &&& ~~~mask ||| bits) &&& ~~~mask ||| bits = v &&& ~~~mask ||| bits := by
  apply BitVec.eq_of_getLsbD_eq
  intro j hj
  simp only [BitVec.getLsbD_or, BitVec.getLsbD_and]
  cases v.getLsbD j <;> cases (~~~mask).getLsbD j <;> cases bits.getLsbD j <;> rfl

/-! Commands and their repetition. -/

/-- A HOST command answers what its effect leaves, or before INIT a refusal (60_exceptions.md R222). -/
theorem hostCommand_next {c : Word} {f : Sized.State W CW ND NS NX NB → Sized.State W CW ND NS NX NB}
    {s t : Sized.State W CW ND NS NX NB} (h : hostCommand c f s = .next t) :
    t = f s ∨ t = refuse .notInitialised c s := by
  cases hi : s.initialised with
  | true => exact .inl (Host.Outcome.next.inj ((hostCommand_of_initialised c f hi).symm.trans h)).symm
  | false => exact .inr (Host.Outcome.next.inj ((hostCommand_of_uninitialised c f hi).symm.trans h)).symm

/-- A HOST command whose effect leaves its own result alone does so as a command (20_memory.md R62). -/
theorem hostCommand_again {c : Word} {f : Sized.State W CW ND NS NX NB → Sized.State W CW ND NS NX NB}
    {s t : Sized.State W CW ND NS NX NB} (hi : s.initialised = true) (hkeep : (f s).initialised = true)
    (hidem : f (f s) = f s) (h : hostCommand c f s = .next t) : hostCommand c f t = .next t := by
  rw [hostCommand_of_initialised c f hi] at h
  obtain rfl := Host.Outcome.next.inj h
  rw [hostCommand_of_initialised c f hkeep, hidem]

theorem writeDigits_again (P : Sized.Params W CW ND NS NX NB) (ps : List (Fin ND)) (pattern : Fin ND → Byte) {c : Word}
    {s t : Sized.State W CW ND NS NX NB} (hi : s.initialised = true) (hg : s.gaps = [])
    (h : hostCommand c (writeDigits P ps pattern) s = .next t) :
    hostCommand c (writeDigits P ps pattern) t = .next t := by
  have once := writeDigits_quiet P ps pattern hg
  have twice := writeDigits_quiet P ps pattern (s := writeDigits P ps pattern s) (by rw [once]; exact hg)
  refine hostCommand_again hi (by rw [once]; exact hi) ?_ h
  rw [twice, once, digitsWritten_idem]

/-- SETEXTRAKEY of an extra key (43_control.md R211). -/
theorem exec_setextrakey_of_key {key : BitVec 2} {k : Fin 3} (pin : PinId) {s : State} (hk : keyIndex key = some k)
    (hi : s.initialised = true) :
    exec (.setextrakey key pin) s = .next (configureKey k pin (drive [.cfgIn pin] s)) := by
  rw [← hostCommand_of_initialised (encode (.setextrakey key pin)) (fun s => configureKey k pin (drive [.cfgIn pin] s)) hi]
  simp only [exec, execSetextrakey, setextrakeyCommand, hk]

/-- Configuring a key again appends its pin event and changes nothing else. -/
theorem configureKey_again (k : Fin NX) (pin : PinId) (s : Sized.State W CW ND NS NX NB) :
    configureKey k pin (drive [.cfgIn pin] (configureKey k pin (drive [.cfgIn pin] s))) =
      { configureKey k pin (drive [.cfgIn pin] s) with
        trace := (configureKey k pin (drive [.cfgIn pin] s)).trace ++ [.cfgIn pin] } := by
  simp [configureKey, drive]

end Sys2Proof.Machine
end

section
/-! SUPPORT. TICK as a command, and what it reads (40_refresh.md R101-R104). -/

namespace Sys2Proof.Machine

variable {W CW ND NS NX NB : Nat}

/-- What a pin read answers depends on ENV alone (20_memory.md R56). -/
theorem envAnswer_congr (p : PinId) {s u : Sized.State W CW ND NS NX NB} (henv : s.env = u.env)
    (hdraws : s.draws = u.draws) : envAnswer p s = envAnswer p u := by
  simp only [envAnswer, henv, hdraws]

theorem slotByte_eq (P : Sized.Params W CW ND NS NX NB) (i : Fin NS) (s : Sized.State W CW ND NS NX NB) :
    slotByte P i s = if h : i.val < ND then s.digit[i.val] else s.led := by
  cases h : P.slot4Byte with
  | led => simp only [slotByte]

theorem exec_tick_of_enabled {s : State} (h : s.timerEnabled = true) : exec .tick s = .next (tick Config.board s) :=
  if_pos h

/-- TICK answers what the refresh unit leaves (40_refresh.md R101). -/
theorem exec_tick_next {s t : State} (h : exec .tick s = .next t) : t = tick Config.board s := by
  cases ht : s.timerEnabled with
  | true => exact (Host.Outcome.next.inj ((exec_tick_of_enabled ht).symm.trans h)).symm
  | false =>
    rw [exec_tick_of_disabled ht] at h
    cases h

end Sys2Proof.Machine
end

section
/-! SUPPORT. The folds of a POLL, with the TICKs at their boundaries and without (42_classifier.md R161). -/

namespace Sys2Proof.Machine

variable {W CW ND NS NX NB : Nat}

/-- One atomic fold: key k's pin read and its raw bit written, with the pins `pins` configured (42_classifier.md R161). -/
def foldPin (P : Sized.Params W CW ND NS NX NB) (pins : Vector PinId NX) (s : Sized.State W CW ND NS NX NB)
    (k : Fin NX) : Sized.State W CW ND NS NX NB :=
  writeRawBit P.extraKeyBit[k].val (envAnswer pins[k] s == P.extraPressedLevel) (readLevel pins[k] s)

theorem foldKey_of_atomicBit {P : Sized.Params W CW ND NS NX NB} (hP : P.rawFold = .atomicBit) (k : Fin NX)
    (s : Sized.State W CW ND NS NX NB) : foldKey P k s = foldPin P s.extraPin s k := by
  simp only [foldKey, hP, foldPin]

/-- The byte-wide fold: a boundary between the read of `raw` and the write of the whole byte
(93_implementation_defined.md I7). -/
theorem foldKey_of_byteRmw {P : Sized.Params W CW ND NS NX NB} (hP : P.rawFold = .byteRmw) (k : Fin NX)
    (s : Sized.State W CW ND NS NX NB) :
    foldKey P k s = { gap P (readLevel s.extraPin[k] s) with
      raw := setBit s.raw P.extraKeyBit[k].val (envAnswer s.extraPin[k] s == P.extraPressedLevel) } := by
  simp only [foldKey, hP, readLevel_raw]

/-- The boundary list is no part of what a fold does. -/
theorem foldPin_setGaps (P : Sized.Params W CW ND NS NX NB) (pins : Vector PinId NX)
    (s : Sized.State W CW ND NS NX NB) (k : Fin NX) (g : List Nat) :
    foldPin P pins { s with gaps := g } k = { foldPin P pins s k with gaps := g } := rfl

/-- One fold and the boundary after it (20_memory.md R57). -/
def foldThenGap (P : Sized.Params W CW ND NS NX NB) (pins : Vector PinId NX) (s : Sized.State W CW ND NS NX NB)
    (k : Fin NX) : Sized.State W CW ND NS NX NB := gap P (foldPin P pins s k)

/-- A POLL's folds are those of the configured keys in order, each with its boundary, on the pins configured at its start:
neither a fold nor a TICK changes the configuration (42_classifier.md R161). -/
theorem foldKeys_eq_foldl {P : Sized.Params W CW ND NS NX NB} (hP : P.rawFold = .atomicBit) (ks : List (Fin NX))
    (s : Sized.State W CW ND NS NX NB) :
    foldKeys P ks s = (ks.filter (fun k => s.extraCfg[k])).foldl (foldThenGap P s.extraPin) s := by
  induction ks generalizing s with
  | nil => rfl
  | cons k ks ih =>
    rw [foldKeys]
    cases hk : s.extraCfg[k] with
    | false =>
      have hskip : (k :: ks).filter (fun k => s.extraCfg[k]) = ks.filter (fun k => s.extraCfg[k]) :=
        List.filter_cons_of_neg (Bool.eq_false_iff.mp hk)
      rw [hskip]
      exact ih s
    | true =>
      have hgap := gap_frame P (foldPin P s.extraPin s k)
      have hcfg : (foldThenGap P s.extraPin s k).extraCfg = s.extraCfg := hgap.extraCfg
      have hpin : (foldThenGap P s.extraPin s k).extraPin = s.extraPin := hgap.extraPin
      have hrest := ih (foldThenGap P s.extraPin s k)
      rw [hcfg, hpin] at hrest
      have htake : (k :: ks).filter (fun k => s.extraCfg[k]) = k :: ks.filter (fun k => s.extraCfg[k]) :=
        List.filter_cons_of_pos hk
      rw [if_pos rfl, foldKey_of_atomicBit hP, htake, List.foldl_cons]
      exact hrest

/-- With no TICK inside the POLL the folds simply follow each other. -/
theorem foldl_foldThenGap_quiet (P : Sized.Params W CW ND NS NX NB) (pins : Vector PinId NX) (ks : List (Fin NX))
    {s : Sized.State W CW ND NS NX NB} (h : s.gaps = []) :
    ks.foldl (foldThenGap P pins) s = ks.foldl (foldPin P pins) s := by
  induction ks generalizing s with
  | nil => rfl
  | cons k ks ih =>
    rw [List.foldl_cons, List.foldl_cons, foldThenGap, gap_nil P (foldPin P pins s k) h]
    exact ih h

/-- One TICK at the last boundary comes after all the folds. -/
theorem foldl_foldThenGap_one_tick (P : Sized.Params W CW ND NS NX NB) (pins : Vector PinId NX) (ks : List (Fin NX))
    {s : Sized.State W CW ND NS NX NB} {b : Nat} (ht : s.timerEnabled = true) (hg : s.gaps = List.replicate b 0 ++ [1])
    (hlen : ks.length = b + 1) :
    ks.foldl (foldThenGap P pins) s = tick P (ks.foldl (foldPin P pins) { s with gaps := [] }) := by
  induction ks generalizing s b with
  | nil => cases hlen
  | cons k ks ih =>
    rw [List.foldl_cons, List.foldl_cons, foldPin_setGaps]
    cases b with
    | zero =>
      obtain rfl : ks = [] := List.eq_nil_of_length_eq_zero (Nat.succ.inj hlen)
      have hone : foldThenGap P pins s k = ticks P 1 { foldPin P pins s k with gaps := [] } := gap_cons P _ hg
      exact hone.trans (ticks_one P _ ht)
    | succ b =>
      have hzero : foldThenGap P pins s k = { foldPin P pins s k with gaps := List.replicate b 0 ++ [1] } :=
        gap_cons P (foldPin P pins s k) hg
      rw [hzero]
      exact ih ht rfl (Nat.succ.inj hlen)

/-- Folds change `raw`, the trace and ENV's answers alone (20_memory.md R66). -/
theorem foldl_foldPin_frame (P : Sized.Params W CW ND NS NX NB) (pins : Vector PinId NX) (ks : List (Fin NX))
    (s : Sized.State W CW ND NS NX NB) :
    ks.foldl (foldPin P pins) s = { s with
      raw := (ks.foldl (foldPin P pins) s).raw
      trace := (ks.foldl (foldPin P pins) s).trace
      env := (ks.foldl (foldPin P pins) s).env
      draws := (ks.foldl (foldPin P pins) s).draws } := by
  induction ks generalizing s with
  | nil => rfl
  | cons k ks ih =>
    rw [List.foldl_cons, ih (foldPin P pins s k)]
    rfl

/-- Folds write their own keys' raw bits alone (20_memory.md R60, 42_classifier.md R161). -/
theorem foldl_foldPin_raw_of_ne (P : Sized.Params W CW ND NS NX NB) (pins : Vector PinId NX) (ks : List (Fin NX))
    (s : Sized.State W CW ND NS NX NB) {j : Nat} (hj : ∀ k ∈ ks, j ≠ P.extraKeyBit[k].val) :
    (ks.foldl (foldPin P pins) s).raw.getLsbD j = s.raw.getLsbD j := by
  induction ks generalizing s with
  | nil => rfl
  | cons k ks ih =>
    obtain ⟨hjk, hjks⟩ := List.forall_mem_cons.mp hj
    rw [List.foldl_cons, ih _ hjks]
    exact getLsbD_setBit_of_ne _ _ _ _ hjk

/-- What the folds of the keys `ks` leave when their pins answer `ls` and ENV then has the answers `rest`
(42_classifier.md R161). -/
structure FoldsDone (P : Sized.Params W CW ND NS NX NB) (pins : Vector PinId NX) (ks : List (Fin NX)) (ls rest : List Bool)
    (s t : Sized.State W CW ND NS NX NB) : Prop where
  trace : t.trace = s.trace ++ (ks.zip ls).map (fun x => .read pins[x.1] x.2)
  env : t.env = rest
  own : ∀ x ∈ ks.zip ls, t.raw.getLsbD P.extraKeyBit[x.1].val = (x.2 == P.extraPressedLevel)

/-- Folds of keys with different raw bits keep each other's answer. -/
theorem foldsDone (P : Sized.Params W CW ND NS NX NB) (pins : Vector PinId NX) (ks : List (Fin NX)) (ls rest : List Bool)
    (s : Sized.State W CW ND NS NX NB) (hbits : (ks.map (fun k => P.extraKeyBit[k].val)).Nodup)
    (hlen : ls.length = ks.length) (henv : s.env = ls ++ rest) :
    FoldsDone P pins ks ls rest s (ks.foldl (foldPin P pins) s) := by
  induction ks generalizing s ls with
  | nil =>
    obtain rfl := List.eq_nil_of_length_eq_zero hlen
    exact ⟨(List.append_nil _).symm, henv, nofun⟩
  | cons k ks ih =>
    obtain _ | ⟨l, ls⟩ := ls
    · cases hlen
    obtain ⟨hk, hbits⟩ := List.nodup_cons.mp hbits
    obtain ⟨htrace, hrest, hown⟩ :=
      ih ls (foldPin P pins s k) hbits (Nat.succ.inj hlen) (congrArg List.tail henv)
    have hl : envAnswer pins[k] s = l := envAnswer_cons s _ henv
    rw [List.foldl_cons]
    refine ⟨?_, hrest, fun x hx => ?_⟩
    · rw [htrace, ← hl]
      exact List.append_assoc ..
    · rcases List.mem_cons.mp hx with rfl | hx
      · have hlater : ∀ k' ∈ ks, P.extraKeyBit[k].val ≠ P.extraKeyBit[k'].val := fun k' hk' e =>
          hk (List.mem_map.mpr ⟨k', hk', e.symm⟩)
        rw [foldl_foldPin_raw_of_ne P pins ks _ hlater, ← hl]
        exact (getLsbD_setBit _ _ _ P.extraKeyBit[k].isLt _).trans (if_pos rfl)
      · exact hown x hx

/-! One TICK between the folds of a POLL. -/

/-- With one TICK at the boundary after the keys `pre`, its effect stands between the folds of `pre` and those of `post`
(20_memory.md R57). -/
theorem foldl_foldThenGap_tick_between (P : Sized.Params W CW ND NS NX NB) (pins : Vector PinId NX)
    (pre post : List (Fin NX)) {s : Sized.State W CW ND NS NX NB} {b : Nat} (ht : s.timerEnabled = true)
    (hg : s.gaps = List.replicate b 0 ++ [1]) (hlen : pre.length = b + 1) :
    (pre ++ post).foldl (foldThenGap P pins) s =
      post.foldl (foldPin P pins) (tick P (pre.foldl (foldPin P pins) { s with gaps := [] })) := by
  have hquiet : (tick P (pre.foldl (foldPin P pins) { s with gaps := [] })).gaps = [] := by
    rw [tick_gaps, foldl_foldPin_frame]
  rw [List.foldl_append, foldl_foldThenGap_one_tick P pins pre ht hg hlen, foldl_foldThenGap_quiet P pins post hquiet]

/-- What folds leave with one TICK between those of `pre`, answered `before`, and those of `post`, answered `after`, when the
TICK's own read is answered `l`. -/
structure TickBetweenFolds (P : Sized.Params W CW ND NS NX NB) (pins : Vector PinId NX) (pre post : List (Fin NX))
    (before after rest : List Bool) (l : Bool) (s t : Sized.State W CW ND NS NX NB) : Prop where
  idx : t.idx = nextSlot s.idx
  env : t.env = rest
  trace : t.trace = s.trace ++ (pre.zip before).map (fun x => .read pins[x.1] x.2) ++
    (.read P.pinSwRead l :: tickWrites P s.idx (slotByte P s.idx s)) ++
    (post.zip after).map (fun x => .read pins[x.1] x.2)
  own : ∀ x ∈ (pre ++ post).zip (before ++ after),
    t.raw.getLsbD P.extraKeyBit[x.1].val = (x.2 == P.extraPressedLevel)
  sampled : t.raw.getLsbD s.idx.val = (l == P.swPressedLevel)

/-- Folds and a TICK write different raw bits, so each answer reaches its own bit (20_memory.md R60). -/
theorem tickBetweenFolds (P : Sized.Params W CW ND NS NX NB) (pins : Vector PinId NX) (pre post : List (Fin NX))
    (before after rest : List Bool) (l : Bool) (s : Sized.State W CW ND NS NX NB) (hNS : NS ≤ 8)
    (hbits : ((pre ++ post).map (fun k => P.extraKeyBit[k].val)).Nodup) (hslots : ∀ k : Fin NX, NS ≤ P.extraKeyBit[k].val)
    (hpre : before.length = pre.length) (hpost : after.length = post.length)
    (henv : s.env = before ++ l :: (after ++ rest)) :
    TickBetweenFolds P pins pre post before after rest l s
      (post.foldl (foldPin P pins) (tick P (pre.foldl (foldPin P pins) s))) := by
  rw [List.map_append] at hbits
  obtain ⟨hbpre, hbpost, hdisj⟩ := List.nodup_append.mp hbits
  have hidx : s.idx.val < NS := s.idx.isLt
  have hfold := foldl_foldPin_frame P pins pre s
  obtain ⟨utrace, uenv, uown⟩ := foldsDone P pins pre before (l :: (after ++ rest)) s hbpre hpre henv
  generalize pre.foldl (foldPin P pins) s = u at hfold utrace uenv uown ⊢
  have uidx : u.idx = s.idx := by rw [hfold]
  have ubyte : slotByte P s.idx u = slotByte P s.idx s := by rw [hfold]; rfl
  have hl : envAnswer P.pinSwRead u = l := envAnswer_cons u _ uenv
  have vidx : (tick P u).idx = nextSlot s.idx := by rw [tick_eq, uidx]
  have vtrace : (tick P u).trace =
      u.trace ++ (.read P.pinSwRead l :: tickWrites P s.idx (slotByte P s.idx s)) := by
    rw [tick_eq, uidx, hl, ubyte]
  have vraw : (tick P u).raw = setBit u.raw s.idx.val (l == P.swPressedLevel) := by rw [tick_raw, uidx, hl]
  have venv : (tick P u).env = after ++ rest := by rw [tick_env, uenv]; rfl
  generalize tick P u = v at vidx vtrace vraw venv ⊢
  obtain ⟨ttrace, tenv, town⟩ := foldsDone P pins post after rest v hbpost hpost venv
  refine ⟨?_, tenv, by rw [ttrace, vtrace, utrace], fun x hx => ?_, ?_⟩
  · rw [foldl_foldPin_frame, vidx]
  · rw [List.zip_append hpre.symm] at hx
    rcases List.mem_append.mp hx with hx | hx
    · have hk : x.1 ∈ pre := (List.of_mem_zip hx).1
      have hslot := hslots x.1
      have hlater : ∀ k ∈ post, P.extraKeyBit[x.1].val ≠ P.extraKeyBit[k].val := fun k hk' =>
        hdisj _ (List.mem_map.mpr ⟨x.1, hk, rfl⟩) _ (List.mem_map.mpr ⟨k, hk', rfl⟩)
      rw [foldl_foldPin_raw_of_ne P pins post v hlater, vraw, getLsbD_setBit_of_ne _ _ _ _ (by omega), uown x hx]
    · exact town x hx
  · have hlater : ∀ k ∈ post, s.idx.val ≠ P.extraKeyBit[k].val := fun k _ => by
      have hslot := hslots k
      omega
    rw [foldl_foldPin_raw_of_ne P pins post v hlater, vraw, getLsbD_setBit _ _ _ (by omega), if_pos rfl]

/-! A POLL on the board. -/

/-- EXTRA_KEY_BIT on the board (00_scope.md R9). -/
theorem board_extraKeyBit (k : Fin 3) : Config.board.extraKeyBit[k].val = 5 + k.val := by
  revert k; decide

/-- Each extra key has its own raw bit (00_scope.md R10). -/
theorem keyBits_nodup : ((List.finRange 3).map (fun k => Config.board.extraKeyBit[k].val)).Nodup := by decide

/-- On the board, one TICK at the boundary after the first b + 1 of the keys `ks`. -/
theorem board_tickBetweenFolds (pins : Vector PinId 3) (ks : List (Fin 3)) (hks : ks.Sublist (List.finRange 3)) {s : State}
    {b : Nat} {before after rest : List Bool} {l : Bool} (ht : s.timerEnabled = true)
    (hg : s.gaps = List.replicate b 0 ++ [1]) (hbefore : before.length = b + 1)
    (hafter : b + 1 + after.length = ks.length) (henv : s.env = before ++ l :: (after ++ rest)) :
    TickBetweenFolds Config.board pins (ks.take (b + 1)) (ks.drop (b + 1)) before after rest l s
      (ks.foldl (foldThenGap Config.board pins) s) := by
  have hpre : (ks.take (b + 1)).length = b + 1 := List.length_take_of_le (by omega)
  have hpost : after.length = (ks.drop (b + 1)).length := by rw [List.length_drop]; omega
  have hbits : ((ks.take (b + 1) ++ ks.drop (b + 1)).map (fun k => Config.board.extraKeyBit[k].val)).Nodup := by
    rw [List.take_append_drop]
    exact (hks.map _).nodup keyBits_nodup
  have hslots : ∀ k : Fin 3, 5 ≤ Config.board.extraKeyBit[k].val := fun k => by
    rw [board_extraKeyBit]; omega
  have hsplit := foldl_foldThenGap_tick_between Config.board pins (ks.take (b + 1)) (ks.drop (b + 1)) ht hg hpre
  rw [List.take_append_drop] at hsplit
  rw [hsplit]
  have hdone := tickBetweenFolds Config.board pins (ks.take (b + 1)) (ks.drop (b + 1)) before after rest l
    { s with gaps := [] } (by decide) hbits hslots (hbefore.trans hpre.symm) hpost henv
  exact { hdone with }

/-- After the folds a POLL touches nothing it shares with TICK, nor ENV (42_classifier.md R162). -/
theorem pollWith_after_folds (now : Time) {s u : State} (hu : foldKeys Config.board (List.finRange 3) s = u) :
    (pollWith Config.board now s).raw = u.raw ∧ (pollWith Config.board now s).idx = u.idx ∧
      (pollWith Config.board now s).trace = u.trace ∧ (pollWith Config.board now s).env = u.env ∧
      (pollWith Config.board now s).draws = u.draws ∧ (pollWith Config.board now s).gaps = u.gaps := by
  rw [pollWith, hu, snapshotStep_rest (by decide)]
  exact ⟨rfl, rfl, rfl, rfl, rfl, rfl⟩

/-- With no TICK inside, a POLL leaves the scan position and the multiplexed raw bits alone (20_memory.md R66). -/
theorem pollWith_quiet (now : Time) {s : State} (hg : s.gaps = []) :
    (pollWith Config.board now s).idx = s.idx ∧
      ∀ j, j < 5 → (pollWith Config.board now s).raw.getLsbD j = s.raw.getLsbD j := by
  obtain ⟨hraw, hidx, -⟩ := pollWith_after_folds now (foldKeys_eq_foldl rfl (List.finRange 3) s)
  rw [hraw, hidx, foldl_foldThenGap_quiet _ _ _ hg]
  refine ⟨by rw [foldl_foldPin_frame], fun j hj => foldl_foldPin_raw_of_ne _ _ _ _ fun k _ => ?_⟩
  rw [board_extraKeyBit]
  omega

/-- A lane whose counter has run out takes the raw bit (42_classifier.md R164). -/
theorem pollWith_stable_of_open (now : Time) (s : State) (j : Fin 6) (h : s.dbt[j] = 0) :
    (pollWith Config.board now s).stable.getLsbD j = (pollWith Config.board now s).raw.getLsbD j := by
  rw [(pollWith_lane (by decide) Config.board now s j).2, laneAt, h, laneStep_open]

end Sys2Proof.Machine
end

section
/-! SUPPORT. The access matrix's writes, command by command (20_memory.md R66). -/

namespace Sys2Proof.Machine

/-- The commands that own `digit`. -/
def ownsDigit : Instr → Prop
  | .showSegs _ _ _ _ => True
  | .shownum _ _ => True
  | .clear => True
  | _ => False

/-- The commands that own `led`. -/
def ownsLed : Instr → Prop
  | .setleds _ _ => True
  | .clearleds _ => True
  | _ => False

/-- The command that owns the classifier's fields, the extra keys' raw bits and the deliveries. -/
def ownsClassifier : Instr → Prop
  | .poll _ => True
  | _ => False

/-- The command that owns the handler slot. -/
def ownsHandler : Instr → Prop
  | .sethandler _ => True
  | _ => False

/-- The command that owns the extra keys' configuration. -/
def ownsExtra : Instr → Prop
  | .setextrakey _ _ => True
  | _ => False

/-- What no command but POLL and INIT changes. -/
def ClassifierKept (s t : State) : Prop :=
  t.dbt = s.dbt ∧ t.stable = s.stable ∧ t.lastStable = s.lastStable ∧ t.lastCombo = s.lastCombo ∧
    t.dblDeadline = s.dblDeadline ∧ t.rptDeadline = s.rptDeadline ∧ t.longPress = s.longPress ∧ t.emits = s.emits ∧
    ∀ j, 5 ≤ j → t.raw.getLsbD j = s.raw.getLsbD j

/-- Command i changes only fields it owns, and with no TICK inside it neither `idx` nor the multiplexed raw bits
(20_memory.md R66). -/
structure OwnersOnly (i : Instr) (s t : State) : Prop where
  digit : ownsDigit i ∨ t.digit = s.digit
  led : ownsLed i ∨ t.led = s.led
  classifier : ownsClassifier i ∨ ClassifierKept s t
  handler : ownsHandler i ∨ t.handler = s.handler
  extra : ownsExtra i ∨ (t.extraCfg = s.extraCfg ∧ t.extraPin = s.extraPin)
  quiet : i ≠ .tick → s.gaps = [] → t.idx = s.idx ∧ ∀ j, j < 5 → t.raw.getLsbD j = s.raw.getLsbD j
  initialised : t.initialised = s.initialised
  timerEnabled : t.timerEnabled = s.timerEnabled

theorem OwnersOnly.refl (i : Instr) (s : State) : OwnersOnly i s s where
  digit := .inr rfl
  led := .inr rfl
  classifier := .inr ⟨rfl, rfl, rfl, rfl, rfl, rfl, rfl, rfl, fun _ _ => rfl⟩
  handler := .inr rfl
  extra := .inr ⟨rfl, rfl⟩
  quiet := fun _ _ => ⟨rfl, fun _ _ => rfl⟩
  initialised := rfl
  timerEnabled := rfl

/-- TICKs inside a command, or the TICK itself, write `idx` and the multiplexed raw bits alone. -/
theorem OwnersOnly.of_tickFrame {i : Instr} {s u t : State} (h : OwnersOnly i s u) (f : TickFrame u t)
    (hquiet : i ≠ .tick → s.gaps = [] → t = u) : OwnersOnly i s t where
  digit := by rw [f.digit]; exact h.digit
  led := by rw [f.led]; exact h.led
  classifier := h.classifier.imp_right fun hkept => by
    obtain ⟨hdbt, hstable, hlast, hcombo, hdbl, hrpt, hlong, hemits, hraw⟩ := hkept
    rw [f.rest]
    exact ⟨hdbt, hstable, hlast, hcombo, hdbl, hrpt, hlong, hemits, fun j hj => (f.high j hj).trans (hraw j hj)⟩
  handler := by rw [f.handler]; exact h.handler
  extra := by rw [f.extraCfg, f.extraPin]; exact h.extra
  quiet := fun hi hg => by rw [hquiet hi hg]; exact h.quiet hi hg
  initialised := f.initialised.trans h.initialised
  timerEnabled := f.timerEnabled.trans h.timerEnabled

/-- A refusal changes no field of the access matrix (60_exceptions.md R221). -/
theorem OwnersOnly.refuse (i : Instr) (s : State) (r : Reason) (c : Word) : OwnersOnly i s (refuse r c s) :=
  { OwnersOnly.refl i s with }

theorem OwnersOnly.hostCommand {i : Instr} {s t : State} {c : Word} {f : State → State} (h : hostCommand c f s = .next t)
    (hf : OwnersOnly i s (f s)) : OwnersOnly i s t := by
  rcases hostCommand_next h with rfl | rfl
  · exact hf
  · exact .refuse i s _ c

/-- Digit writes change what a command that owns the digits may change. -/
theorem OwnersOnly.writeDigits {i : Instr} (hi : ownsDigit i) (ps : List (Fin 4)) (pattern : Fin 4 → Byte) (s : State) :
    OwnersOnly i s (writeDigits Config.board ps pattern s) :=
  have own : OwnersOnly i s { s with digit := digitsWritten ps pattern s.digit } :=
    { OwnersOnly.refl i s with digit := .inl hi }
  own.of_tickFrame (writeDigits_frame Config.board ps pattern s) fun _ hg => writeDigits_quiet _ ps pattern hg

theorem OwnersOnly.pollWith (now : Time) (s : State) : OwnersOnly (.poll now) s (pollWith Config.board now s) where
  digit := .inr (by rw [pollWith_rest])
  led := .inr (by rw [pollWith_rest])
  classifier := .inl trivial
  handler := .inr (by rw [pollWith_rest])
  extra := .inr (by rw [pollWith_rest]; exact ⟨rfl, rfl⟩)
  quiet := fun _ hg => pollWith_quiet now hg
  initialised := by rw [pollWith_rest]
  timerEnabled := by rw [pollWith_rest]

/-- Every command but INIT, by the fields it owns. -/
theorem OwnersOnly.exec {i : Instr} {s t : State} (hinit : i ≠ .init) (h : exec i s = .next t) : OwnersOnly i s t := by
  cases i with
  | init => exact absurd rfl hinit
  | sethandler x => exact .hostCommand h { OwnersOnly.refl _ s with handler := .inl trivial }
  | setextrakey key pin =>
    simp only [Machine.exec, execSetextrakey, setextrakeyCommand] at h
    split at h
    · cases h
      exact .refuse _ s _ _
    · exact .hostCommand h { OwnersOnly.refl _ s with extra := .inl trivial }
  | showSegs d0 d1 d2 d3 => exact .hostCommand h (.writeDigits (i := .showSegs d0 d1 d2 d3) trivial _ _ s)
  | shownum n start => exact .hostCommand h (.writeDigits (i := .shownum n start) trivial _ _ s)
  | clear => exact .hostCommand h (.writeDigits (i := .clear) trivial _ _ s)
  | setleds bits mask =>
    have own : OwnersOnly (.setleds bits mask) s { s with led := s.led &&& ~~~mask ||| bits } :=
      { OwnersOnly.refl _ s with led := .inl trivial }
    exact .hostCommand h (own.of_tickFrame (setledsWith_frame Config.board bits mask s)
      fun _ hg => setledsWith_quiet _ bits mask hg)
  | clearleds mask => exact .hostCommand h { OwnersOnly.refl _ s with led := .inl trivial }
  | poll now => exact .hostCommand h (.pollWith now s)
  | tick =>
    obtain rfl := exec_tick_next h
    exact (OwnersOnly.refl _ s).of_tickFrame (tick_frame _ s) fun hi => absurd rfl hi

end Sys2Proof.Machine
end

section
/-! PROOFS. The obligations of 20_memory.md. -/

namespace Sys2Proof

open Sys2Proof.Machine

/-- Settles O6: the bytes are the word's fields in ascending order, and put together they are the word again. -/
theorem bytesAreLittleEndian : Obligations.BytesAreLittleEndian := by
  refine ⟨fun p c rest => ?_, fun c k j hj => ⟨field c (8 * k.val) 8, ?_, getLsbD_field c _ 8 j hj⟩, decodeBytes_short⟩
  · cases hdec : decode p c with
    | ok i => exact decodeBytes_of_ok hdec rest
    | error r => exact decodeBytes_of_error hdec rest
  · rw [bytesOfWord_eq_map, List.getElem?_map, List.getElem?_range k.isLt, Option.map_some]

/-- Settles O29: with no TICK inside, each of these commands is one write of values that do not depend on what it writes. -/
theorem displayAndConfigurationAreIdempotent : Obligations.DisplayAndConfigurationAreIdempotent := by
  intro i s t hi hg h
  cases i with
  | init | poll _ | tick => trivial
  | sethandler x => exact hostCommand_again (f := writeHandler x) hi hi rfl h
  | showSegs d0 d1 d2 d3 => exact writeDigits_again Config.board _ _ hi hg h
  | shownum n start => exact writeDigits_again Config.board _ _ hi hg h
  | clear => exact writeDigits_again Config.board _ _ hi hg h
  | setleds bits mask =>
    have once := setledsWith_quiet Config.board bits mask hg
    have twice := setledsWith_quiet Config.board bits mask (s := setledsWith Config.board bits mask s) (by rw [once]; exact hg)
    refine hostCommand_again hi (by rw [once]; exact hi) ?_ h
    rw [twice, once, clear_set_idem]
  | clearleds mask =>
    refine hostCommand_again hi hi ?_ h
    simp only [clearLedBits, BitVec.and_assoc, BitVec.and_self]
  | setextrakey key pin =>
    intro hkey
    obtain ⟨k, hk⟩ := Option.ne_none_iff_exists'.mp (mt (keyIndex_eq_none key).mp hkey)
    rw [exec_setextrakey_of_key pin hk hi] at h
    obtain rfl := Host.Outcome.next.inj h
    have again := exec_setextrakey_of_key pin hk (s := configureKey k pin (drive [.cfgIn pin] s)) hi
    rw [again, configureKey_again]

/-- Settles O33: TICK's events and sample are a function of the slot, the slot's byte and ENV's answer. -/
theorem tickReadsOnlyItsColumn : Obligations.TickReadsOnlyItsColumn := by
  intro s u t v hdigit hled hidx henv hdraws ht hv
  obtain rfl := exec_tick_next ht
  obtain rfl := exec_tick_next hv
  have hl := envAnswer_congr Config.board.pinSwRead henv hdraws
  have hbyte : slotByte Config.board u.idx u = slotByte Config.board u.idx s := by
    rw [slotByte_eq, slotByte_eq, hdigit, hled]
  have hslot : u.idx.val < 8 := by omega
  refine ⟨.read Config.board.pinSwRead (envAnswer Config.board.pinSwRead u) ::
    tickWrites Config.board u.idx (slotByte Config.board u.idx u), ?_, ?_, ?_, ?_, ?_⟩
  · rw [tick_eq, hl, hidx, hbyte]
  · rw [tick_eq]
  · rw [tick_eq, tick_eq, hidx]
  · rw [tick_raw, tick_raw, hl, hidx, getLsbD_setBit _ _ _ hslot, getLsbD_setBit _ _ _ hslot, if_pos rfl, if_pos rfl]
  · rw [tick_env, tick_env, henv]

/-- Settles O42: the folds with their boundaries come before the snapshot, which takes `raw` as they leave it; and folds and
TICK write different raw bits. -/
theorem tickInsidePollIsInItsSnapshot : Obligations.TickInsidePollIsInItsSnapshot := by
  intro now s hi ks
  have hfolds : foldKeys Config.board (List.finRange 3) s = ks.foldl (foldThenGap Config.board s.extraPin) s :=
    foldKeys_eq_foldl rfl (List.finRange 3) s
  constructor
  · intro fold u
    have hfold : fold = foldThenGap Config.board s.extraPin := by
      funext u k
      simp only [foldThenGap, foldPin, board_extraKeyBit]
      rfl
    have hu : foldKeys Config.board (List.finRange 3) s = u := by simp only [u, hfold, hfolds]
    exact ⟨_, exec_poll_of_initialised now hi, pollWith_after_folds now hu⟩
  · intro b before after rest l ht hg hbefore hafter henv
    have hu := board_tickBetweenFolds s.extraPin ks List.filter_sublist ht hg hbefore hafter henv
    obtain ⟨uidx, uenv, utrace, uown, usampled⟩ := hu
    rw [List.take_append_drop] at uown
    obtain ⟨traw, tidx, ttrace, tenv, -⟩ := pollWith_after_folds now hfolds
    have tsampled := (congrArg (fun r => r.getLsbD s.idx.val) traw).trans usampled
    refine ⟨_, exec_poll_of_initialised now hi, ?_, tenv.trans uenv, ?_, fun x hx => ?_, tsampled, fun hopen => ?_⟩
    · rw [tidx, uidx, nextSlot_five]
    · rw [ttrace, utrace, slotByte_eq]
      rfl
    · rw [traw, ← board_extraKeyBit]
      exact uown x hx
    · exact (pollWith_stable_of_open now s ⟨s.idx.val, by omega⟩ hopen).trans tsampled

/-- Settles O43: an atomic fold is one write of its own bit; the byte-wide fold writes back the byte read before the TICK. -/
theorem atomicFoldLosesNoTicksBit : Obligations.AtomicFoldLosesNoTicksBit := by
  constructor
  · intro P k s hP j hj
    rw [foldKey_of_atomicBit hP]
    exact getLsbD_setBit_of_ne _ _ _ _ hj
  · intro P k s hP ht hg hne
    have hgap : gap P (readLevel s.extraPin[k] s) = tick P { readLevel s.extraPin[k] s with gaps := [] } :=
      (gap_cons P (readLevel s.extraPin[k] s) hg).trans (ticks_one P _ ht)
    rw [foldKey_of_byteRmw hP, hgap, tick_eq]
    exact ⟨getLsbD_setBit_of_ne _ _ _ _ hne.symm, nextSlot_five s.idx⟩

/-- Settles O55: each command by the fields it owns, the TICKs inside it by theirs. -/
theorem onlyOwnersWriteTheirFields : Obligations.OnlyOwnersWriteTheirFields := by
  intro i s t h hinit
  obtain ⟨hdigit, hled, hclassifier, hhandler, hextra, hquiet, hi, ht⟩ := OwnersOnly.exec hinit h
  exact ⟨hdigit, hled, hclassifier, hhandler, hextra, hquiet, hi, ht⟩

end Sys2Proof
end

section
/-! SUPPORT. A word by its fields, and what HOST's port makes of a word by the opcode table's row (30_encoding.md R70-R85). -/

namespace Sys2Proof

/-! A word by its fields. -/

/-- A field put back in its place keeps the bits of its range alone. -/
theorem getLsbD_place_field (c : Word) (lo len j : Nat) (hj : j < 64) :
    (place (field c lo len) lo).getLsbD j = (decide (lo ≤ j ∧ j < lo + len) && c.getLsbD j) := by
  rw [getLsbD_place _ _ _ hj]
  by_cases hlo : lo ≤ j
  · have hlen : j - lo < len ↔ j < lo + len := by omega
    simp [field, hlo, hlen]
  · simp [hlo]

/-- Two neighbouring fields, each put back in its place, are one field put back. -/
theorem place_field_or (c : Word) (lo m n : Nat) :
    place (field c (lo + m) n) (lo + m) ||| place (field c lo m) lo = place (field c lo (m + n)) lo := by
  apply BitVec.eq_of_getLsbD_eq
  intro j hj
  have range : (lo + m ≤ j ∧ j < lo + m + n ∨ lo ≤ j ∧ j < lo + m) ↔ lo ≤ j ∧ j < lo + (m + n) := by omega
  simp only [BitVec.getLsbD_or, getLsbD_place_field _ _ _ _ hj, ← Bool.and_or_distrib_right, ← Bool.decide_or, range]

theorem place_field_none (c : Word) : place (field c 0 0) 0 = 0 := by simp [place]

/-- SHOW's four operands, each put back in its place, are the low 32 bits put back (R76). -/
theorem place_four_bytes (c : Word) :
    place (field c 24 8) 24 ||| place (field c 16 8) 16 ||| place (field c 8 8) 8 ||| place (field c 0 8) 0 =
      place (field c 0 32) 0 := by
  rw [place_field_or c 16 8 8, place_field_or c 8 8 16]
  exact place_field_or c 0 8 24

/-- Words that agree in every bit of a field agree there. -/
theorem getLsbD_eq_of_field_eq {a b : Word} {lo len j : Nat} (h : field a lo len = field b lo len) (hlo : lo ≤ j)
    (hlen : j < lo + len) : a.getLsbD j = b.getLsbD j := by
  have bit := congrArg (fun v => v.getLsbD (j - lo)) h
  simpa only [getLsbD_field _ lo len (j - lo) (by omega), Nat.add_sub_cancel' hlo] using bit

/-- Two words are one if they agree in the opcode, in the operands [n-1:0] and in what lies between (R70, R71). -/
theorem word_eq_of_fields {a b : Word} (n : Nat) (opcode : field a 56 8 = field b 56 8)
    (reserved : field a n (56 - n) = field b n (56 - n)) (operands : field a 0 n = field b 0 n) : a = b := by
  apply BitVec.eq_of_getLsbD_eq
  intro j hj
  by_cases hn : j < n
  · exact getLsbD_eq_of_field_eq operands (Nat.zero_le j) (by omega)
  · by_cases h56 : j < 56
    · exact getLsbD_eq_of_field_eq reserved (by omega) (by omega)
    · exact getLsbD_eq_of_field_eq opcode (by omega) hj

/-- A word with no reserved bit set is its opcode and its operands. -/
theorem opcode_or_operands {c : Word} {n : Nat} (hn : n ≤ 56) (reserved : field c n (56 - n) = 0) :
    place (field c 56 8) 56 ||| place (field c 0 n) 0 = c := by
  apply word_eq_of_fields n
  · simp (disch := omega) [field_place, field_place_above]
  · simp (disch := omega) [field_place_above, field_place_below, reserved]
  · simp (disch := omega) [field_place, field_place_below]

/-- A mask of the bits from n on leaves the fields from n on. -/
theorem field_and_high (c : Word) {n lo : Nat} (len : Nat) (hn : n ≤ lo) (hlen : lo + len ≤ 64) :
    field (c &&& BitVec.allOnes 64 <<< n) lo len = field c lo len := by
  apply BitVec.eq_of_getLsbD_eq
  intro j hj
  have hlo : n ≤ lo + j := by omega
  have h64 : lo + j < 64 := by omega
  have hbit : lo + j - n < 64 := by omega
  simp only [getLsbD_field _ _ _ _ hj, BitVec.getLsbD_and, BitVec.getLsbD_shiftLeft, BitVec.getLsbD_allOnes, h64, hbit,
    Nat.not_lt.mpr hlo, decide_true, decide_false, Bool.not_false, Bool.and_true]

/-- A mask of the bits from n on clears the field below. -/
theorem field_and_high_low (c : Word) (n : Nat) : field (c &&& BitVec.allOnes 64 <<< n) 0 n = 0 := by
  apply BitVec.eq_of_getLsbD_eq
  intro j hj
  simp [hj]

/-! The rows of the opcode table. -/

/-- How many low bits of a row's words are operands: those its mask leaves free (R71). -/
def OpcodeRow.operandBits (row : OpcodeRow) : Nat := ((~~~row.mask).toNat + 1).log2

/-- Each row fixes the opcode field and asks 0 of every bit between it and the operands (R71-R82). -/
theorem opcodeTable_layout : ∀ row ∈ opcodeTable, row.operandBits ≤ 56 ∧
    row.mask = BitVec.allOnes 64 <<< row.operandBits ∧ row.bits = place (field row.bits 56 8) 56 := by
  decide

/-- A row's words are those with its opcode and no reserved bit set (R71, R72). -/
theorem matches_iff {row : OpcodeRow} (hrow : row ∈ opcodeTable) (c : Word) :
    row.matches c = true ↔
      field row.bits 56 8 = field c 56 8 ∧ field c row.operandBits (56 - row.operandBits) = 0 := by
  obtain ⟨hn, hmask, hbits⟩ := opcodeTable_layout row hrow
  have reservedBits : field row.bits row.operandBits (56 - row.operandBits) = 0 := by
    rw [hbits]
    exact field_place_below _ _ _ _ (by omega) (by omega)
  have operandBits : field row.bits 0 row.operandBits = 0 := by
    rw [hbits]
    exact field_place_below _ _ _ _ (by omega) (by omega)
  rw [OpcodeRow.matches, beq_iff_eq, hmask]
  constructor
  · intro h
    rw [← h, field_and_high c 8 hn (by omega)]
    rw [← h, field_and_high c _ (Nat.le_refl _) (by omega)] at reservedBits
    exact ⟨rfl, reservedBits⟩
  · rintro ⟨opcode, reserved⟩
    apply word_eq_of_fields row.operandBits
    · rw [field_and_high c 8 hn (by omega), opcode]
    · rw [field_and_high c _ (Nat.le_refl _) (by omega), reserved, reservedBits]
    · rw [field_and_high_low, operandBits]

/-! HOST's port by rows. -/

/-- `i` is the row's command with the operands of `c` (R72-R83). -/
structure CommandOfRow (row : OpcodeRow) (c : Word) (i : Instr) : Prop where
  mnemonic : i.mnemonic = row.mnemonic
  wellFormed : i.wellFormed = true
  port : i.port = .host
  opcode : i.opcode = field row.bits 56 8
  operands : i.operands = place (field c 0 row.operandBits) 0

/-- What HOST's port answers to a word of the row: the row's command, but for SETEXTRAKEY with key 3 and for TICK
(R84, R85 items 3 and 4). -/
inductive HostAnswer (row : OpcodeRow) (c : Word) : Except Reason Instr → Prop where
  | command {i : Instr} (isHost : row.port = .host) (h : CommandOfRow row c i) : HostAnswer row c (.ok i)
  | badKey (isKey : row.mnemonic = "setextrakey") (key : field c 8 2 = 3) : HostAnswer row c (.error .badKey)
  | tick (isTimer : row.port = .timer) : HostAnswer row c (.error .tickFromHost)

/-- A word of none of the rows' opcodes is refused on HOST's port (R85 item 1). -/
theorem decodeHost_of_no_row {c : Word} (h : ∀ row ∈ opcodeTable, field row.bits 56 8 ≠ field c 56 8) :
    decodeHost c = .error .illegalOpcode := by
  unfold decodeHost
  split
  case h_11 => rfl
  all_goals
    next hop =>
      rw [hop] at h
      exact absurd h (by decide)

theorem decodeHost_setextrakey {c : Word} (h : field c 56 8 = 0x03) :
    decodeHost c = unlessReserved (field c 10 46)
      (if field c 8 2 = 3 then .error .badKey else .ok (.setextrakey (field c 8 2) (field c 0 8))) := by
  simp [decodeHost, h]

/-- A word with a row's opcode is refused for its reserved bits, or answered by the row (R84, R85). -/
theorem decodeHost_of_row {row : OpcodeRow} (hrow : row ∈ opcodeTable) {c : Word}
    (opcode : field row.bits 56 8 = field c 56 8) :
    ∃ r, decodeHost c = unlessReserved (field c row.operandBits (56 - row.operandBits)) r ∧ HostAnswer row c r := by
  simp only [opcodeTable, List.mem_cons, List.not_mem_nil, or_false] at hrow
  rcases hrow with rfl | rfl | rfl | rfl | rfl | rfl | rfl | rfl | rfl | rfl
  -- SETEXTRAKEY alone has a check left after its reserved bits: its key.
  case inr.inr.inl =>
    refine ⟨_, decodeHost_setextrakey opcode.symm, ?_⟩
    split
    · exact .badKey rfl ‹_›
    · exact .command rfl ⟨rfl, bne_iff_ne.mpr ‹_›, rfl, rfl, place_field_or c 0 8 2⟩
  all_goals
    unfold decodeHost
    rw [← opcode]
  · exact ⟨_, rfl, .command rfl ⟨rfl, rfl, rfl, rfl, (place_field_none c).symm⟩⟩
  · exact ⟨_, rfl, .command rfl ⟨rfl, rfl, rfl, rfl, rfl⟩⟩
  · exact ⟨_, rfl, .command rfl ⟨rfl, rfl, rfl, rfl, place_four_bytes c⟩⟩
  · exact ⟨_, rfl, .command rfl ⟨rfl, rfl, rfl, rfl, place_field_or c 0 16 8⟩⟩
  · exact ⟨_, rfl, .command rfl ⟨rfl, rfl, rfl, rfl, (place_field_none c).symm⟩⟩
  · exact ⟨_, rfl, .command rfl ⟨rfl, rfl, rfl, rfl, place_field_or c 0 8 8⟩⟩
  · exact ⟨_, rfl, .command rfl ⟨rfl, rfl, rfl, rfl, rfl⟩⟩
  · exact ⟨_, rfl, .command rfl ⟨rfl, rfl, rfl, rfl, rfl⟩⟩
  · exact ⟨_, rfl, .tick rfl⟩

/-! What decodes. -/

theorem unlessReserved_ok {α : Type} {n : Nat} {r : BitVec n} {x : Except Reason α} {a : α}
    (h : unlessReserved r x = .ok a) : r = 0 ∧ x = .ok a := by
  by_cases hr : r = 0
  · exact ⟨hr, (if_pos hr).symm.trans h⟩
  · exact absurd ((if_neg hr).symm.trans h) (by simp)

/-- A row's command with its word's operands encodes back to the word, if no reserved bit is set (R70, R71). -/
theorem CommandOfRow.encode_eq {row : OpcodeRow} {c : Word} {i : Instr} (h : CommandOfRow row c i)
    (hrow : row ∈ opcodeTable) (hmatch : row.matches c = true) : encode i = c := by
  obtain ⟨opcode, reserved⟩ := (matches_iff hrow c).mp hmatch
  rw [encode, h.opcode, h.operands, opcode]
  exact opcode_or_operands (opcodeTable_layout row hrow).1 reserved

/-- A word that decodes on HOST's port matches a row, and is that row's command (R84). -/
theorem decodeHost_ok {c : Word} {i : Instr} (h : decodeHost c = .ok i) :
    ∃ row ∈ opcodeTable, row.matches c = true ∧ CommandOfRow row c i := by
  by_cases known : ∃ row ∈ opcodeTable, field row.bits 56 8 = field c 56 8
  · obtain ⟨row, hrow, opcode⟩ := known
    obtain ⟨r, hdec, answer⟩ := decodeHost_of_row hrow opcode
    obtain ⟨reserved, rfl⟩ := unlessReserved_ok (hdec.symm.trans h)
    cases answer with
    | command _ hcommand => exact ⟨row, hrow, (matches_iff hrow c).mpr ⟨opcode, reserved⟩, hcommand⟩
  · have unknown := decodeHost_of_no_row fun row hrow opcode => known ⟨row, hrow, opcode⟩
    exact absurd (unknown.symm.trans h) (by simp)

theorem decodeTimer_ok {c : Word} {i : Instr} (h : decodeTimer c = .ok i) : c = tickWord ∧ i = .tick := by
  by_cases hc : c = tickWord
  · exact ⟨hc, (Except.ok.inj ((if_pos hc).symm.trans h)).symm⟩
  · exact absurd ((if_neg hc).symm.trans h) (by simp)

/-- A word of a row is answered by the row (R84). -/
theorem decodeHost_of_matches {row : OpcodeRow} (hrow : row ∈ opcodeTable) {c : Word} (h : row.matches c = true) :
    HostAnswer row c (decodeHost c) := by
  obtain ⟨opcode, reserved⟩ := (matches_iff hrow c).mp h
  obtain ⟨r, hdec, answer⟩ := decodeHost_of_row hrow opcode
  rw [hdec, reserved]
  exact answer

/-- A word with a row's opcode that is not of the row has a reserved bit set (R85 item 2). -/
theorem decodeHost_of_not_matches {row : OpcodeRow} (hrow : row ∈ opcodeTable) {c : Word}
    (opcode : field row.bits 56 8 = field c 56 8) (h : row.matches c = false) : decodeHost c = .error .reservedBits := by
  obtain ⟨r, hdec, -⟩ := decodeHost_of_row hrow opcode
  rw [hdec]
  refine if_neg fun reserved => ?_
  rw [(matches_iff hrow c).mpr ⟨opcode, reserved⟩] at h
  cases h

/-- TIMER's one row is TICK's, and the row's mask leaves no bit free: it holds one word (R82). -/
theorem eq_tickWord_of_matches {row : OpcodeRow} (hrow : row ∈ opcodeTable) (htimer : row.port = .timer) {c : Word}
    (h : row.matches c = true) : c = tickWord ∧ row.mnemonic = "tick" := by
  have timerRow : ∀ row ∈ opcodeTable, row.port = .timer →
      row.mask = BitVec.allOnes 64 ∧ row.bits = tickWord ∧ row.mnemonic = "tick" := by decide
  obtain ⟨hmask, hbits, hmnemonic⟩ := timerRow row hrow htimer
  rw [OpcodeRow.matches, beq_iff_eq, hmask, hbits, BitVec.and_allOnes] at h
  exact ⟨h, hmnemonic⟩

end Sys2Proof
end

section
/-! SUPPORT. The assembler's mnemonics with aliases or operand defaults, and SHOW of four blanks (30_encoding.md R88). -/

namespace Sys2Proof.Machine

theorem assembleCommand_clear (ops : List (List Char)) : assembleCommand "clear".toList ops = noOperands .clear ops := rfl

theorem assembleCommand_cls (ops : List (List Char)) : assembleCommand "cls".toList ops = noOperands .clear ops := rfl

theorem assembleCommand_poll (ops : List (List Char)) : assembleCommand "poll".toList ops = oneOperand .poll ops := rfl

theorem assembleCommand_run (ops : List (List Char)) : assembleCommand "run".toList ops = oneOperand .poll ops := rfl

theorem assembleCommand_show (ops : List (List Char)) :
    assembleCommand "show".toList ops = (allOperands 8 ops).bind showOperands := rfl

theorem assembleCommand_clearleds_nil : assembleCommand "clearleds".toList [] = some (.clearleds 0xFF) := rfl

theorem assembleCommand_blank (ops : List (List Char)) : assembleCommand "blank".toList ops = none := rfl

@[simp] theorem allOperands_nil (w : Nat) : allOperands w [] = some [] := rfl

/-- Operand lists are read operand by operand (R87). -/
theorem allOperands_cons {w : Nat} {cs : List Char} {v : BitVec w} (h : operand w cs = some v) (rest : List (List Char)) :
    allOperands w (cs :: rest) = (allOperands w rest).map (v :: ·) := by
  rw [allOperands, h]
  cases allOperands w rest <;> rfl

theorem assembleWord_of_command {line : List Char} {i : Instr} (h : assembleLine line = .command i) :
    assembleWord line = some (encode i) := by
  simp only [assembleWord, h]

/-- SHOW of four blanks makes CLEAR's four writes (41_display.md R134, R146). -/
theorem showWith_blanks (P : Params) : showWith P 0 0 0 0 = clearWith P := by
  rw [showWith_eq, clearWith_eq]

theorem exec_showSegs_of_initialised (d0 d1 d2 d3 : Byte) {s : State} (h : s.initialised = true) :
    exec (.showSegs d0 d1 d2 d3) s = .next (showWith Config.board d0 d1 d2 d3 s) :=
  hostCommand_of_initialised _ _ h

theorem exec_clear_of_initialised {s : State} (h : s.initialised = true) :
    exec .clear s = .next (clearWith Config.board s) :=
  hostCommand_of_initialised _ _ h

end Sys2Proof.Machine
end

section
/-! PROOFS. The obligations of 30_encoding.md. -/

namespace Sys2Proof

open Sys2Proof.Machine

/-- Settles O2: each command's fields read back from its word, and the port's decoder selects the command's arm. -/
theorem decodeOfEncodeIsTheCommand : Obligations.DecodeOfEncodeIsTheCommand :=
  decode_encode

/-- Settles O3: a word that decodes is its row's opcode with its operands, no reserved bit set, and that is the encoding. -/
theorem encodeOfDecodeIsTheWord : Obligations.EncodeOfDecodeIsTheWord := by
  intro p c i h
  cases p with
  | host =>
    obtain ⟨row, hrow, hmatch, hcommand⟩ := decodeHost_ok h
    exact ⟨hcommand.wellFormed, hcommand.port, hcommand.encode_eq hrow hmatch⟩
  | timer =>
    obtain ⟨rfl, rfl⟩ := decodeTimer_ok h
    exact ⟨rfl, rfl, encode_tick⟩

/-- Settles O4: the decoder by rows of the opcode table, a row's words being those with its opcode and no reserved bit set. -/
theorem illegalEncodingsAreRefused : Obligations.IllegalEncodingsAreRefused := by
  refine ⟨fun c => decodeHost_of_no_row, fun c row hrow => decodeHost_of_not_matches hrow, fun c hmatch key => ?_, rfl,
    fun c hc => if_neg hc, fun c row hrow hmatch hkey => ?_⟩
  · obtain ⟨opcode, reserved⟩ := (matches_iff (List.getElem_mem _) c).mp hmatch
    have hdec := decodeHost_setextrakey opcode.symm
    rw [if_pos key] at hdec
    exact hdec.trans (if_pos reserved)
  · cases hport : row.port with
    | timer =>
      obtain ⟨rfl, htick⟩ := eq_tickWord_of_matches hrow hport hmatch
      exact ⟨.tick, rfl, htick.symm⟩
    | host =>
      have answer := decodeHost_of_matches hrow hmatch
      generalize hr : decodeHost c = r at answer
      cases answer with
      | command _ h => exact ⟨_, hr, h.mnemonic⟩
      | badKey isKey key => exact absurd key (hkey isKey)
      | tick isTimer => simp [hport] at isTimer

/-- Settles O1 by evaluating the assembler and the decoder on the thirteen lines, and the decoder on the four words. -/
theorem documentedExamplesDecode : Obligations.DocumentedExamplesDecode :=
  ⟨by decide, rfl, rfl, rfl, rfl⟩

/-- Settles O7: `cls` and `run` read the operand lists of `clear` and `poll`, SHOW fills the operands left out with blanks, and four
blanks are CLEAR's writes. -/
theorem aliasesExpandToOneCommand : Obligations.AliasesExpandToOneCommand := by
  refine ⟨fun ops => ?cls, fun ops => ?run, fun a b c d0 d1 d2 ha hb hc => ?defaults, rfl, assembleCommand_clearleds_nil,
    assembleCommand_blank, fun line i => assembleWord_of_command, fun s hi => ?showBlanks⟩
  case cls => rw [assembleCommand_cls, assembleCommand_clear]
  case run => rw [assembleCommand_run, assembleCommand_poll]
  case defaults =>
    simp only [assembleCommand_show, allOperands_cons ha, allOperands_cons hb, allOperands_cons hc, allOperands_nil]
    exact ⟨rfl, rfl, rfl⟩
  case showBlanks => rw [exec_showSegs_of_initialised 0 0 0 0 hi, showWith_blanks, exec_clear_of_initialised hi]

end Sys2Proof
end

section
/-! SUPPORT. TICK's events on this hardware, and TICKs in a row (40_refresh.md R102-R110). -/

namespace Sys2Proof.Machine

variable {W CW ND NS NX NB : Nat}

/-! One TICK. -/

theorem tick_trace (P : Sized.Params W CW ND NS NX NB) (s : Sized.State W CW ND NS NX NB) :
    (tick P s).trace =
      s.trace ++ (.read P.pinSwRead (envAnswer P.pinSwRead s) :: tickWrites P s.idx (slotByte P s.idx s)) := by
  rw [tick_eq]

/-- A TICK's read and writes: 32 events at a digit's slot, 31 at the LED slot on this hardware (40_refresh.md R108). -/
theorem length_tick_trace (P : Params) (s : State) :
    (tick P s).trace.length = s.trace.length + if s.idx.val < 4 then 32 else 31 := by
  rw [tick_trace, List.length_append, List.length_cons, length_tickWrites]
  split <;> rfl

/-! TICKs in a row. -/

theorem ticks_add (P : Sized.Params W CW ND NS NX NB) (m n : Nat) (s : Sized.State W CW ND NS NX NB) :
    ticks P (m + n) s = ticks P n (ticks P m s) := by
  induction m generalizing s with
  | zero => rw [Nat.zero_add, ticks_zero]
  | succ m ih =>
    rw [Nat.succ_add, ticks, ticks]
    exact ih _

@[simp] theorem ticks_timerEnabled (P : Sized.Params W CW ND NS NX NB) (n : Nat) (s : Sized.State W CW ND NS NX NB) :
    (ticks P n s).timerEnabled = s.timerEnabled := (ticks_frame P n s).timerEnabled

/-- The last of n + 1 TICKs. -/
theorem ticks_succ_last (P : Sized.Params W CW ND NS NX NB) (n : Nat) {s : Sized.State W CW ND NS NX NB}
    (h : s.timerEnabled = true) : ticks P (n + 1) s = tick P (ticks P n s) := by
  rw [ticks_add, ticks_one P _ (by rwa [ticks_timerEnabled])]

/-- Each TICK draws one answer from ENV. -/
theorem ticks_env (P : Sized.Params W CW ND NS NX NB) (n : Nat) {s : Sized.State W CW ND NS NX NB}
    (h : s.timerEnabled = true) : (ticks P n s).env = s.env.drop n := by
  induction n with
  | zero => rfl
  | succ n ih => rw [ticks_succ_last P n h, tick_env, ih, List.tail_drop]

/-- Within one turn the raw bit of the slot the k-th TICK visits stands at the level that TICK read, whatever ENV answers
(40_refresh.md R102, R107, R110). -/
theorem ticks_raw_of_answer (P : Sized.Params W CW ND NS NX NB) (hNS : NS ≤ 8) {n k : Nat}
    {s : Sized.State W CW ND NS NX NB} (ht : s.timerEnabled = true) (hn : n ≤ NS) (hk : k < n) :
    (ticks P n s).raw.getLsbD ((s.idx.val + k) % NS) = (envAnswer P.pinSwRead (ticks P k s) == P.swPressedLevel) := by
  obtain ⟨m, rfl⟩ : ∃ m, n = k + 1 + m := ⟨n - (k + 1), by omega⟩
  have hi := (ticks P k s).idx.isLt
  have unvisited : ∀ j < m, ((tick P (ticks P k s)).idx.val + j) % NS ≠ (ticks P k s).idx.val := fun j hj => by
    rw [slot_after_tick]
    exact add_succ_mod_ne_self hi (by omega)
  rw [ticks_add, ticks_succ_last P k ht, ← ticks_idx P k s ht,
    ticks_raw_of_unvisited P m _ _ (by rwa [tick_timerEnabled, ticks_timerEnabled]) unvisited, tick_raw,
    getLsbD_setBit _ _ _ (by omega), if_pos rfl]

theorem exec_tick_ticks (n : Nat) {s : State} (h : s.timerEnabled = true) :
    exec .tick (ticks Config.board n s) = .next (ticks Config.board (n + 1) s) := by
  rw [exec_tick_of_enabled (by rwa [ticks_timerEnabled]), ticks_succ_last _ n h]

/-- The slot after n TICKs, as a sum of slots (40_refresh.md R107). -/
theorem ticks_slot (P : Params) (n : Nat) {s : State} (h : s.timerEnabled = true) :
    (ticks P n s).idx = s.idx + Fin.ofNat 5 n := by
  apply Fin.ext
  rw [ticks_idx P n s h, Fin.val_add, Fin.val_ofNat, Nat.add_mod_mod]

end Sys2Proof.Machine
end

section
/-! SUPPORT. What a TICK's events do to a pin's level and to the reference shift register (10_state.md R32, 60_exceptions.md
R236; log 14, log 23). -/

namespace Sys2Proof.Machine

variable {W CW ND NS NX NB : Nat}

/-! Which pins the events write. -/

theorem write_mem_digitsOff {P : Sized.Params W CW ND NS NX NB} {p : PinId} {l : Bool} :
    .write p l ∈ digitsOff P ↔ (∃ j : Fin ND, P.pinDigit[j] = p) ∧ offLevel P = l := by
  simp [digitsOff]

theorem write_mem_enableSlot {P : Sized.Params W CW ND NS NX NB} {i : Fin NS} {p : PinId} {l : Bool} :
    .write p l ∈ enableSlot P i ↔ ∃ h : i.val < ND, P.pinDigit[i.val] = p ∧ P.digitOnLevel = l := by
  by_cases h : i.val < ND <;> simp [enableSlot, h, eq_comm]

/-- Shifting and latching write the clock and data pins only (40_refresh.md R105). -/
theorem write_mem_shiftOut {P : Sized.Params W CW ND NS NX NB} {b : Byte} {p : PinId} {l : Bool}
    (h : .write p l ∈ shiftOut P b) : p = P.pinClk ∨ p = P.pinData := by
  simp only [shiftOut, shiftBit, clockPulse, List.mem_append, List.mem_flatMap, List.mem_cons, PinEvent.write.injEq,
    List.not_mem_nil, or_false] at h
  tauto

/-! Pin levels. -/

theorem pinLevel_append (p : PinId) (es fs : List PinEvent) :
    pinLevel p (es ++ fs) = fs.foldl (levelAfter p) (pinLevel p es) := by
  rw [pinLevel, List.foldl_append, pinLevel]

theorem levelAfter_of_no_write {p : PinId} {e : PinEvent} (h : ∀ l, e ≠ .write p l) (before : Option Bool) :
    levelAfter p before e = before := by
  cases e with
  | write q l => exact if_neg (fun hq => h l (by rw [hq]))
  | _ => rfl

/-- Events that do not write a pin leave its level (R32). -/
theorem pinLevel_append_of_no_write {p : PinId} (es : List PinEvent) {fs : List PinEvent} (h : ∀ l, .write p l ∉ fs) :
    pinLevel p (es ++ fs) = pinLevel p es := by
  rw [pinLevel_append]
  refine List.foldlRecOn (motive := (· = pinLevel p es)) fs _ rfl (fun before hbefore e he => ?_)
  rw [levelAfter_of_no_write (fun l hl => h l (hl ▸ he)), hbefore]

theorem pinLevel_append_write (p : PinId) (es : List PinEvent) (l : Bool) :
    pinLevel p (es ++ [.write p l]) = some l := by
  rw [pinLevel_append]
  exact if_pos rfl

/-- A pin written at least once, and every time to l, ends at l. -/
theorem foldl_levelAfter_of_writes {p : PinId} {l : Bool} {fs : List PinEvent} {before : Option Bool}
    (hl : .write p l ∈ fs ∨ before = some l) (hall : ∀ l', .write p l' ∈ fs → l' = l) :
    fs.foldl (levelAfter p) before = some l := by
  induction fs generalizing before with
  | nil => simpa using hl
  | cons e fs ih =>
    refine ih ?_ (fun l' h => hall l' (List.mem_cons_of_mem e h))
    by_cases hw : ∃ l', e = .write p l'
    · obtain ⟨l', rfl⟩ := hw
      rw [hall l' List.mem_cons_self]
      exact .inr (if_pos rfl)
    · rw [not_exists] at hw
      rw [levelAfter_of_no_write hw]
      exact hl.imp_left (fun h => (List.mem_cons.mp h).resolve_left (fun e' => hw l e'.symm))

/-! The reference shift register. -/

theorem shiftRegRun_append (P : Sized.Params W CW ND NS NX NB) (r : ShiftReg) (es fs : List PinEvent) :
    shiftRegRun P r (es ++ fs) = shiftRegRun P (shiftRegRun P r es) fs := List.foldl_append

/-- The register sees the clock and data pins only (R236). -/
theorem shiftRegRun_of_no_write {P : Sized.Params W CW ND NS NX NB} (r : ShiftReg) {es : List PinEvent}
    (hclk : ∀ l, .write P.pinClk l ∉ es) (hdata : ∀ l, .write P.pinData l ∉ es) : shiftRegRun P r es = r := by
  refine List.foldlRecOn (motive := (· = r)) es _ rfl (fun r' hr' e he => ?_)
  rw [hr']
  cases e with
  | write p l =>
    have hc : p ≠ P.pinClk := fun h => hclk l (h ▸ he)
    have hd : p ≠ P.pinData := fun h => hdata l (h ▸ he)
    rw [shiftRegEvent, if_neg hc, if_neg hd]
  | _ => rfl

@[simp] theorem shiftEdge_clk (r : ShiftReg) : (shiftEdge r).clk = r.clk := rfl
@[simp] theorem shiftEdge_q (r : ShiftReg) : (shiftEdge r).q = r.sh := rfl

/-- An edge shifts the data level in below the stage's bits. -/
theorem getLsbD_shiftEdge_sh (r : ShiftReg) {j : Nat} (hj : j < 8) :
    (shiftEdge r).sh.getLsbD j = if j = 0 then r.data else r.sh.getLsbD (j - 1) := by
  cases j with
  | zero => simp [shiftEdge]
  | succ j => simp [shiftEdge, hj, BitVec.getLsbD_eq_getElem (show j < 8 by omega)]

/-- One clock pulse from idle is one edge, and the clock is idle again (40_refresh.md R105). -/
theorem shiftRegRun_clockPulse {P : Sized.Params W CW ND NS NX NB} {r : ShiftReg} (hr : r.clk = P.clkIdle) :
    shiftRegRun P r (clockPulse P) = shiftEdge r := by
  have hne : clkActive P ≠ P.clkIdle := by simp [clkActive]
  simp [shiftRegRun, clockPulse, shiftRegEvent, hr, hne, shiftEdge]

/-- One data bit sent while the clock is idle: its level, then one edge (40_refresh.md R105). -/
theorem shiftRegRun_shiftBit {P : Sized.Params W CW ND NS NX NB} (hpins : P.pinData ≠ P.pinClk) {r : ShiftReg}
    (hr : r.clk = P.clkIdle) (b : Bool) : shiftRegRun P r (shiftBit P b) = shiftEdge { r with data := b } := by
  have hdata : shiftRegEvent P r (.write P.pinData b) = { r with data := b } := by
    rw [shiftRegEvent, if_neg hpins, if_pos rfl]
  rw [shiftBit, shiftRegRun, List.foldl_cons, hdata]
  exact shiftRegRun_clockPulse hr

/-- The bits n - 1 down to 0 of a byte as data bits, the highest first: step 3 without its latch pulse is the case n = 8
(40_refresh.md R105). -/
def shiftLowBits (P : Sized.Params W CW ND NS NX NB) (b : Byte) (n : Nat) : List PinEvent :=
  (List.range n).reverse.flatMap (fun k => shiftBit P (b.getLsbD k))

theorem shiftLowBits_succ (P : Sized.Params W CW ND NS NX NB) (b : Byte) (n : Nat) :
    shiftLowBits P b (n + 1) = shiftBit P (b.getLsbD n) ++ shiftLowBits P b n := by
  rw [shiftLowBits, List.range_succ, List.reverse_append, List.reverse_singleton, List.singleton_append,
    List.flatMap_cons, shiftLowBits]

theorem shiftOut_eq (P : Sized.Params W CW ND NS NX NB) (b : Byte) :
    shiftOut P b = shiftLowBits P b 8 ++ clockPulse P := rfl

/-- From an idle clock n bits fill the stage's low bits, what was there moves up n places, and the clock is idle again
(40_refresh.md R105, 60_exceptions.md R236). -/
theorem shiftRegRun_shiftLowBits {P : Sized.Params W CW ND NS NX NB} (hpins : P.pinData ≠ P.pinClk) (b : Byte) (n : Nat)
    {r : ShiftReg} (hr : r.clk = P.clkIdle) :
    (shiftRegRun P r (shiftLowBits P b n)).clk = P.clkIdle ∧
    ∀ j < 8, (shiftRegRun P r (shiftLowBits P b n)).sh.getLsbD j =
      if j < n then b.getLsbD j else r.sh.getLsbD (j - n) := by
  induction n generalizing r with
  | zero => exact ⟨hr, fun j _ => rfl⟩
  | succ n ih =>
    obtain ⟨hclk, hsh⟩ := ih (r := shiftEdge { r with data := b.getLsbD n }) hr
    rw [shiftLowBits_succ, shiftRegRun_append, shiftRegRun_shiftBit hpins hr]
    refine ⟨hclk, fun j hj => ?_⟩
    rw [hsh j hj, getLsbD_shiftEdge_sh _ (by omega)]
    rcases Nat.lt_trichotomy j n with hlt | rfl | hgt
    · rw [if_pos hlt, if_pos (by omega)]
    · simp
    · rw [if_neg (by omega), if_neg (by omega), if_neg (by omega), Nat.sub_sub]

/-- Shifting a byte out latches it and leaves the clock idle (40_refresh.md R105, R111). -/
theorem shiftRegRun_shiftOut {P : Sized.Params W CW ND NS NX NB} (hpins : P.pinData ≠ P.pinClk) (b : Byte)
    {r : ShiftReg} (hr : r.clk = P.clkIdle) :
    (shiftRegRun P r (shiftOut P b)).q = b ∧ (shiftRegRun P r (shiftOut P b)).clk = P.clkIdle := by
  obtain ⟨hclk, hsh⟩ := shiftRegRun_shiftLowBits hpins b 8 hr
  rw [shiftOut_eq, shiftRegRun_append, shiftRegRun_clockPulse hclk, shiftEdge_q, shiftEdge_clk]
  refine ⟨BitVec.eq_of_getLsbD_eq fun j hj => ?_, hclk⟩
  rw [hsh j hj, if_pos hj]

/-! The whole TICK, on a board whose output pins are different. -/

/-- The output pins of a block of any size are different (00_scope.md R9, D9). -/
structure OutputPinsApart (P : Sized.Params W CW ND NS NX NB) : Prop where
  data_ne_clk : P.pinData ≠ P.pinClk
  digit_ne_clk : ∀ j : Fin ND, P.pinDigit[j] ≠ P.pinClk
  digit_ne_data : ∀ j : Fin ND, P.pinDigit[j] ≠ P.pinData
  digit_injective : ∀ i j : Fin ND, P.pinDigit[i] = P.pinDigit[j] → i = j

/-- The premise of the display claims, pin by pin. -/
theorem outputPinsApart {P : Params} (h : P.OutputPinsDistinct) : OutputPinsApart P := by
  have hnodup : ((List.finRange 4).map (fun j => P.pinDigit[j]) ++ [P.pinClk, P.pinData]).Nodup := h
  obtain ⟨hdigits, hpair, hdisjoint⟩ := List.nodup_append.mp hnodup
  have hdigit : ∀ j : Fin 4, P.pinDigit[j] ∈ (List.finRange 4).map (fun j => P.pinDigit[j]) := fun j =>
    List.mem_map_of_mem (List.mem_finRange j)
  exact {
    data_ne_clk := fun e => by simp [e] at hpair
    digit_ne_clk := fun j => hdisjoint _ (hdigit j) _ (by simp)
    digit_ne_data := fun j => hdisjoint _ (hdigit j) _ (by simp)
    digit_injective := fun i j e => List.inj_on_of_nodup_map hdigits (List.mem_finRange i) (List.mem_finRange j) e }

/-- After a TICK the slot's byte is latched and the clock is idle (40_refresh.md R104, R105, R111). -/
theorem shiftRegRun_tick {P : Sized.Params W CW ND NS NX NB} (hP : OutputPinsApart P) {s : Sized.State W CW ND NS NX NB}
    {r : ShiftReg} (hr : (shiftRegRun P r s.trace).clk = P.clkIdle) :
    (shiftRegRun P r (tick P s).trace).q = slotByte P s.idx s ∧ (shiftRegRun P r (tick P s).trace).clk = P.clkIdle := by
  have hread : ∀ r', shiftRegRun P r' [.read P.pinSwRead (envAnswer P.pinSwRead s)] = r' := fun r' => rfl
  have hoff : ∀ r', shiftRegRun P r' (digitsOff P) = r' := fun r' =>
    shiftRegRun_of_no_write r'
      (fun l h => (write_mem_digitsOff.mp h).1.elim hP.digit_ne_clk)
      (fun l h => (write_mem_digitsOff.mp h).1.elim hP.digit_ne_data)
  have hon : ∀ r', shiftRegRun P r' (enableSlot P s.idx) = r' := fun r' =>
    shiftRegRun_of_no_write r'
      (fun l h => (write_mem_enableSlot.mp h).elim fun hi e => hP.digit_ne_clk ⟨s.idx.val, hi⟩ e.1)
      (fun l h => (write_mem_enableSlot.mp h).elim fun hi e => hP.digit_ne_data ⟨s.idx.val, hi⟩ e.1)
  rw [tick_trace, tickWrites, ← List.singleton_append]
  simp only [shiftRegRun_append, hread, hoff, hon]
  exact shiftRegRun_shiftOut hP.data_ne_clk _ hr

/-- After a TICK the slot's own digit-enable is ON and the others are OFF (40_refresh.md R103, R106, R111). -/
theorem digitOn_tick {P : Sized.Params W CW ND NS NX NB} (hP : OutputPinsApart P) (s : Sized.State W CW ND NS NX NB)
    (j : Fin ND) : digitOn P (tick P s).trace j = decide (j.val = s.idx.val) := by
  have hoff : ∀ es, pinLevel P.pinDigit[j] (es ++ digitsOff P) = some (offLevel P) := fun es => by
    rw [pinLevel_append]
    exact foldl_levelAfter_of_writes (.inl (write_mem_digitsOff.mpr ⟨⟨j, rfl⟩, rfl⟩))
      (fun l' h => (write_mem_digitsOff.mp h).2.symm)
  have hshift : ∀ es b, pinLevel P.pinDigit[j] (es ++ shiftOut P b) = pinLevel P.pinDigit[j] es := fun es b =>
    pinLevel_append_of_no_write es fun l h => (write_mem_shiftOut h).elim (hP.digit_ne_clk j) (hP.digit_ne_data j)
  rw [tick_trace, tickWrites, List.append_cons, ← List.append_assoc, ← List.append_assoc]
  by_cases hj : j.val = s.idx.val
  · have hon : enableSlot P s.idx = [.write P.pinDigit[j] P.digitOnLevel] := by
      have hi : s.idx.val < ND := hj ▸ j.isLt
      simp only [enableSlot, dif_pos hi, Fin.getElem_fin, hj]
    rw [digitOn, hon, pinLevel_append_write, decide_eq_true hj, beq_self_eq_true]
  · have hon : ∀ l, .write P.pinDigit[j] l ∉ enableSlot P s.idx := fun l h => by
      obtain ⟨hi, e, -⟩ := write_mem_enableSlot.mp h
      exact hj (congrArg Fin.val (hP.digit_injective ⟨s.idx.val, hi⟩ j e)).symm
    rw [digitOn, pinLevel_append_of_no_write _ hon, hshift, hoff, decide_eq_false hj]
    simp [offLevel]

end Sys2Proof.Machine
end

section
/-! PROOFS. The obligations of 40_refresh.md. -/

namespace Sys2Proof

open Sys2Proof.Machine

/-- Settles O34: the digits' writes pass the register by, the eight pulses and the latch pulse bring the slot's byte to its
outputs, and only the slot's own enable is written after all were switched off. -/
theorem tickDisplaysTheSlotsByte : Obligations.TickDisplaysTheSlotsByte := by
  intro P s r hdistinct hr
  have hP := outputPinsApart hdistinct
  obtain ⟨hq, hclk⟩ := shiftRegRun_tick hP hr
  rw [slotByte_eq] at hq
  refine ⟨hq, hclk, digitOn_tick hP s, fun j => ?_⟩
  by_cases hj : j.val = s.idx.val
  · have hi : s.idx.val < 4 := hj ▸ j.isLt
    rw [shownAt, digitOn_tick hP, if_pos (decide_eq_true hj), if_pos hj, hq, dif_pos hi]
    simp only [Fin.getElem_fin, hj]
  · rw [shownAt, digitOn_tick hP, if_neg (ne_true_of_eq_false (decide_eq_false hj)), if_neg hj]

/-- Settles O30: TICK's one equation, its events written out at this hardware's sizes. -/
theorem tickSamplesShiftsAndAdvances : Obligations.TickSamplesShiftsAndAdvances := by
  intro s
  refine ⟨fun ht t h => ?_, fun ht => ⟨tick Config.board s, exec_tick_of_enabled ht, fun j => ?_, tick_idx _ s, ?_,
    length_tick_trace _ s, ?_⟩⟩
  · rw [exec_tick_of_disabled ht] at h
    cases h
  · rw [tick_raw, getLsbD_setBit _ _ _ (by omega)]
  · rw [tick_trace, slotByte_eq]
    simp only [List.append_assoc]
    rfl
  · rw [tick_eq]

/-- Settles O31: the one arm of TICK that answers no next state. -/
theorem tickNeedsTheTimer : Obligations.TickNeedsTheTimer :=
  fun _ => exec_tick_of_disabled

/-- Settles O32: the k-th of five TICKs visits slot idx + k, and no other of the five comes back to it. -/
theorem fiveTicksScanEverySlot : Obligations.FiveTicksScanEverySlot := by
  intro s ht
  have hnext : ∀ n, exec .tick (ticks Config.board n s) = .next (ticks Config.board (n + 1) s) :=
    fun n => exec_tick_ticks n ht
  have hslot := fun n => ticks_slot Config.board n ht
  refine ⟨_, _, _, _, _, hnext 0, hnext 1, hnext 2, hnext 3, hnext 4, hslot 1, hslot 2, hslot 3, hslot 4, ?_,
    fun x hx => ?_, (ticks_frame Config.board 5 s).high, ticks_env Config.board 5 ht⟩
  · exact (hslot 5).trans (add_zero _)
  · obtain ⟨k, -, rfl⟩ : ∃ k ∈ List.finRange 5, (k, ticks Config.board k.val s) = x := List.mem_map.mp hx
    rw [Fin.val_add]
    exact ticks_raw_of_answer Config.board (by decide) ht (by decide) k.isLt

end Sys2Proof
end

section
/-! SUPPORT. HOST's display commands: a refusal before INIT, the digits written, and one TICK at a boundary (41_display.md,
20_memory.md R57). -/

namespace Sys2Proof.Machine

variable {W CW ND NS NX NB : Nat}

/-! Before INIT. -/

/-- The refusal of a command by its own word is the one before INIT (60_exceptions.md R222, R223). -/
theorem refuse_notInitialised (i : Instr) (s : State) :
    refuse .notInitialised (encode i) s = s.refusedBeforeInit i := by
  unfold refuse State.refusedBeforeInit
  cases s.firstRefusal <;> rfl

theorem hostCommand_refusedBeforeInit (i : Instr) (f : State → State) {s : State} (h : s.initialised = false) :
    hostCommand (encode i) f s = .next (s.refusedBeforeInit i) := by
  rw [hostCommand_of_uninitialised _ f h, refuse_notInitialised]

/-! Digit writes. -/

/-- Writing every position leaves the pattern, whatever the digits were. -/
theorem digitsWritten_finRange (pattern : Fin ND → Byte) (d : Vector Byte ND) :
    digitsWritten (List.finRange ND) pattern d = Vector.ofFn pattern := by
  apply Vector.ext
  intro q hq
  rw [Vector.getElem_ofFn]
  exact (getElem_digitsWritten _ pattern d ⟨q, hq⟩).trans (if_pos (List.mem_finRange _))

/-- The g TICKs after the first b + 1 digit writes find those positions written and no other, and the other writes follow
(20_memory.md R57). -/
theorem writeDigits_boundary (P : Sized.Params W CW ND NS NX NB) (pattern : Fin ND → Byte) {ps : List (Fin ND)}
    {b g : Nat} {rest : List Nat} {s : Sized.State W CW ND NS NX NB} (hb : b + 1 < ps.length)
    (hg : s.gaps = List.replicate b 0 ++ g :: rest) :
    writeDigits P ps pattern s = writeDigits P (ps.drop (b + 1)) pattern
      (ticks P g { s with digit := digitsWritten (ps.take (b + 1)) pattern s.digit, gaps := rest }) := by
  induction b generalizing ps s with
  | zero =>
    match ps, hb with
    | p :: q :: ps, _ => exact congrArg _ (gap_cons P (writeDigit p (pattern p) s) hg)
  | succ b ih =>
    match ps, hb with
    | p :: q :: ps, hb =>
      have quiet := gap_cons P (writeDigit p (pattern p) s) hg
      exact (congrArg (writeDigits P (q :: ps) pattern) quiet).trans (ih (Nat.lt_of_succ_lt_succ hb) rfl)

/-- One TICK after the first b + 1 digit writes, while TIMER runs: it shifts what those writes left (40_refresh.md R104). -/
theorem writeDigits_tick (P : Sized.Params W CW ND NS NX NB) (pattern : Fin ND → Byte) {ps : List (Fin ND)} {b : Nat}
    {s : Sized.State W CW ND NS NX NB} (hb : b + 1 < ps.length) (ht : s.timerEnabled = true)
    (hg : s.gaps = List.replicate b 0 ++ [1]) :
    (writeDigits P ps pattern s).idx = nextSlot s.idx ∧
      (writeDigits P ps pattern s).trace = s.trace ++ (.read P.pinSwRead (envAnswer P.pinSwRead s) ::
        tickWrites P s.idx (slotByte P s.idx
          { s with digit := digitsWritten (ps.take (b + 1)) pattern s.digit, gaps := [] })) := by
  have boundary := (writeDigits_boundary P pattern hb hg).trans (congrArg _ (ticks_one P _ ht))
  rw [boundary, writeDigits_quiet P _ pattern (tick_gaps P _), tick_eq]
  exact ⟨rfl, rfl⟩

/-- The byte shifted while the digits hold some positions of a new pattern (40_refresh.md R104, 70_reset_and_hazards.md R262). -/
theorem slotByte_of_digitsWritten (P : Sized.Params W CW ND NS NX NB) (ps : List (Fin ND)) (pattern : Fin ND → Byte)
    (g : List Nat) (i : Fin NS) (s : Sized.State W CW ND NS NX NB) :
    slotByte P i { s with digit := digitsWritten ps pattern s.digit, gaps := g } =
      if h : i.val < ND then (if ⟨i.val, h⟩ ∈ ps then pattern ⟨i.val, h⟩ else s.digit[i.val]) else s.led := by
  rw [slotByte_eq]
  refine dite_congr rfl (fun h => ?_) fun _ => rfl
  exact getElem_digitsWritten ps pattern s.digit ⟨i.val, h⟩

/-! Runs of consecutive positions. -/

theorem mem_take_drop_finRange (n k m : Nat) (q : Fin n) :
    q ∈ ((List.finRange n).drop k).take m ↔ k ≤ q.val ∧ q.val < k + m := by
  constructor
  · intro h
    obtain ⟨i, hi, rfl⟩ := List.mem_take_iff_getElem.mp h
    simp only [List.getElem_drop, List.getElem_finRange, Fin.val_cast]
    omega
  · rintro ⟨hk, hm⟩
    refine List.mem_take_iff_getElem.mpr ⟨q.val - k, ?_, Fin.ext ?_⟩
    · rw [List.length_drop, List.length_finRange]
      omega
    · simp only [List.getElem_drop, List.getElem_finRange, Fin.val_cast]
      omega

/-- In range SHOWNUM leaves the first `start` positions out (41_display.md R138). -/
theorem shownPositions_of_lt {start : BitVec 8} (h : start.toNat < ND) :
    (shownPositions start : List (Fin ND)) = (List.finRange ND).drop start.toNat := by
  have skipped : ∀ p ∈ (List.finRange ND).take start.toNat, ¬ decide (start.toNat ≤ p.val) = true := by
    intro p hp
    have := (mem_take_drop_finRange ND 0 start.toNat p).mp hp
    simp only [decide_eq_true_eq]
    omega
  have kept : ∀ p ∈ (List.finRange ND).drop start.toNat, decide (start.toNat ≤ p.val) = true := by
    intro p hp
    rw [← List.take_length (l := List.drop _ _)] at hp
    exact decide_eq_true ((mem_take_drop_finRange ND start.toNat _ p).mp hp).1
  conv_lhs => rw [shownPositions, if_pos h, ← List.take_append_drop start.toNat (List.finRange ND)]
  rw [List.filter_append, List.filter_eq_nil_iff.mpr skipped, List.filter_eq_self.mpr kept, List.nil_append]

/-- The sentinel stands at every position (41_display.md R139). -/
theorem shownPositions_of_ge {start : BitVec 8} (h : ND ≤ start.toNat) :
    (shownPositions start : List (Fin ND)) = (List.finRange ND).drop 0 := if_neg (Nat.not_lt.mpr h)

/-! The commands. -/

theorem exec_shownum_of_initialised (n : BitVec 16) (start : BitVec 8) {s : State} (h : s.initialised = true) :
    exec (.shownum n start) s = .next (shownumWith Config.board n start s) :=
  hostCommand_of_initialised _ _ h

theorem exec_setleds_of_initialised (bits mask : Byte) {s : State} (h : s.initialised = true) :
    exec (.setleds bits mask) s = .next (setledsWith Config.board bits mask s) :=
  hostCommand_of_initialised _ _ h

/-- Four digit writes with TICKs at the three boundaries between them (41_display.md R134, R146; 20_memory.md R57). -/
theorem writeDigits_three_boundaries (P : Params) (pattern : Fin 4 → Byte) {s : State} {a b c : Nat}
    (h : s.gaps = [a, b, c]) :
    let s1 := ticks P a { s with digit := s.digit.set 0 (pattern 0), gaps := [b, c] }
    let s2 := ticks P b { s1 with digit := s1.digit.set 1 (pattern 1), gaps := [c] }
    let s3 := ticks P c { s2 with digit := s2.digit.set 2 (pattern 2), gaps := [] }
    writeDigits P (List.finRange 4) pattern s = { s3 with digit := s3.digit.set 3 (pattern 3) } := by
  intro s1 s2 s3
  have first : gap P (writeDigit 0 (pattern 0) s) = s1 := gap_cons P _ h
  have second : gap P (writeDigit 1 (pattern 1) s1) = s2 := gap_cons P _ (ticks_gaps P a _)
  have third : gap P (writeDigit 2 (pattern 2) s2) = s3 := gap_cons P _ (ticks_gaps P b _)
  calc writeDigits P (List.finRange 4) pattern s
      = writeDigits P [1, 2, 3] pattern (gap P (writeDigit 0 (pattern 0) s)) := rfl
    _ = writeDigits P [2, 3] pattern (gap P (writeDigit 1 (pattern 1) s1)) := by rw [first]; rfl
    _ = writeDigits P [3] pattern (gap P (writeDigit 2 (pattern 2) s2)) := by rw [second]; rfl
    _ = writeDigit 3 (pattern 3) s3 := by rw [third]; rfl

/-- A command that writes a pattern at all four positions: its refusal, its frame, its quiet run, and its writes in order
with TICKs between them (41_display.md R134, R146). -/
theorem exec_writesFourDigits {i : Instr} {pattern : Fin 4 → Byte}
    (hexec : exec i = hostCommand (encode i) (writeDigits Config.board (List.finRange 4) pattern)) (s : State) :
    (s.initialised = false → exec i s = .next (s.refusedBeforeInit i)) ∧
    (s.initialised = true → ∃ t, exec i s = .next t ∧ TickFrame { s with digit := Vector.ofFn pattern } t) ∧
    (s.initialised = true → s.gaps = [] → exec i s = .next { s with digit := Vector.ofFn pattern }) ∧
    (∀ a b c, s.initialised = true → s.gaps = [a, b, c] →
      let s1 := ticks Config.board a { s with digit := s.digit.set 0 (pattern 0), gaps := [b, c] }
      let s2 := ticks Config.board b { s1 with digit := s1.digit.set 1 (pattern 1), gaps := [c] }
      let s3 := ticks Config.board c { s2 with digit := s2.digit.set 2 (pattern 2), gaps := [] }
      exec i s = .next { s3 with digit := s3.digit.set 3 (pattern 3) }) := by
  have run (hi : s.initialised = true) :
      exec i s = .next (writeDigits Config.board (List.finRange 4) pattern s) := by
    rw [hexec, hostCommand_of_initialised _ _ hi]
  refine ⟨fun hi => ?_, fun hi => ⟨_, run hi, ?_⟩, fun hi hg => ?_, fun a b c hi hg => ?_⟩
  · rw [hexec, hostCommand_refusedBeforeInit i _ hi]
  · rw [← digitsWritten_finRange pattern s.digit]
    exact writeDigits_frame Config.board _ pattern s
  · rw [run hi, writeDigits_quiet Config.board _ pattern hg, digitsWritten_finRange]
  · exact (run hi).trans (congrArg Host.Outcome.next (writeDigits_three_boundaries Config.board pattern hg))

theorem shownumWith_digits (P : Sized.Params W CW ND NS NX NB) (n : BitVec 16) (start : BitVec 8)
    (s : Sized.State W CW ND NS NX NB) :
    (shownumWith P n start s).digit = digitsWritten (shownPositions start) (glyph P n start) s.digit :=
  (writeDigits_frame P _ _ s).digit

/-- The digit SHOWNUM leaves at a position (41_display.md R138-R142). -/
theorem shownumWith_digit (P : Sized.Params W CW ND NS NX NB) (n : BitVec 16) (start : BitVec 8)
    (s : Sized.State W CW ND NS NX NB) (p : Fin ND) :
    (shownumWith P n start s).digit[p] =
      if start.toNat < ND → start.toNat ≤ p.val then glyph P n start p else s.digit[p] := by
  rw [shownumWith_digits, getElem_digitsWritten]
  exact if_congr (mem_shownPositions start p) rfl rfl

/-- One TICK inside digit writes of the positions from k on, after the first b + 1 of them: what it shifts
(20_memory.md R57, 70_reset_and_hazards.md R262). -/
theorem writeDigits_drop_tick (P : Params) (pattern : Fin 4 → Byte) {k b : Nat} {s : State} (hb : k + b < 3)
    (ht : s.timerEnabled = true) (hg : s.gaps = List.replicate b 0 ++ [1]) :
    (writeDigits P ((List.finRange 4).drop k) pattern s).idx = s.idx + 1 ∧
      (writeDigits P ((List.finRange 4).drop k) pattern s).trace =
        s.trace ++ (.read P.pinSwRead (envAnswer P.pinSwRead s) :: tickWrites P s.idx
          (if h : s.idx.val < 4 then
            (if k ≤ s.idx.val ∧ s.idx.val ≤ k + b then pattern ⟨s.idx.val, h⟩ else s.digit[s.idx.val])
          else s.led)) := by
  have hlen : b + 1 < ((List.finRange 4).drop k).length := by
    rw [List.length_drop, List.length_finRange]
    omega
  have written : ∀ h : s.idx.val < 4, (⟨s.idx.val, h⟩ ∈ ((List.finRange 4).drop k).take (b + 1)) =
      (k ≤ s.idx.val ∧ s.idx.val ≤ k + b) := fun h => by
    rw [mem_take_drop_finRange, ← Nat.add_assoc, Nat.lt_succ_iff]
  obtain ⟨hidx, htrace⟩ := writeDigits_tick P pattern hlen ht hg
  rw [slotByte_of_digitsWritten] at htrace
  simp only [written] at htrace
  exact ⟨hidx.trans (nextSlot_five s.idx), htrace⟩

end Sys2Proof.Machine
end

section
/-! PROOFS. The obligations of 41_display.md. -/

namespace Sys2Proof

open Sys2Proof.Machine

/-- Settles O22: SHOW writes its operands by position. -/
theorem showWritesTheFourDigits : Obligations.ShowWritesTheFourDigits :=
  fun d0 d1 d2 d3 => exec_writesFourDigits (pattern := showPattern d0 d1 d2 d3) rfl

/-- Settles O24: each position written holds its own decimal digit, or the sentinel, and the writes own the digits alone. -/
theorem shownumShowsPositionAlignedDigits : Obligations.ShownumShowsPositionAlignedDigits := by
  intro n start s hi
  refine ⟨_, exec_shownum_of_initialised n start hi, fun p => ?digit, ?frame, fun hg => ?quiet⟩
  case digit =>
    rw [shownumWith_digit]
    by_cases hlt : start.toNat < 4
    · rw [if_neg (show ¬ 3 < start.toNat by omega), glyph, if_pos hlt]
      exact if_congr (imp_iff_right hlt) rfl rfl
    · rw [if_pos (show 3 < start.toNat by omega), if_pos (fun h => absurd h hlt), glyph, if_neg hlt]
  case frame =>
    rw [shownumWith_digits]
    exact writeDigits_frame Config.board _ _ s
  case quiet =>
    rw [shownumWith_digits]
    exact writeDigits_quiet Config.board _ _ hg

/-- Settles O25: both forms write a run of consecutive positions, and the TICK finds the first b + 1 of them written. -/
theorem tickInsideShownumSeesATornFrame : Obligations.TickInsideShownumSeesATornFrame := by
  intro n start s b hi ht hform hg
  refine ⟨_, exec_shownum_of_initialised n start hi, ?_⟩
  rw [shownumWith]
  rcases hform with hrange | ⟨hrange, hb⟩
  · have hlt : start.toNat < 4 := by omega
    obtain ⟨hidx, htrace⟩ := writeDigits_drop_tick Config.board (glyph Config.board n start) hrange ht hg
    rw [shownPositions_of_lt hlt]
    refine ⟨hidx, ?_⟩
    rw [htrace]
    simp only [glyph, if_pos hlt, if_neg (show ¬ 3 < start.toNat by omega)]
    rfl
  · obtain ⟨hidx, htrace⟩ := writeDigits_drop_tick Config.board (glyph Config.board n start) (k := 0) (by omega) ht hg
    rw [shownPositions_of_ge hrange]
    refine ⟨hidx, ?_⟩
    rw [htrace]
    simp only [glyph, if_pos hrange, if_neg (show ¬ start.toNat < 4 by omega), Nat.zero_le, true_and, Nat.zero_add]
    rfl

/-- Settles O26: CLEAR writes a blank at every position; the assembler is evaluated on its two mnemonics. -/
theorem clearBlanksOnlyTheDigits : Obligations.ClearBlanksOnlyTheDigits :=
  ⟨assembleWord_of_command (i := .clear) rfl, assembleWord_of_command (i := .clear) rfl,
    exec_writesFourDigits (pattern := fun _ => 0) rfl⟩

/-- Settles O27: the two writes and the boundary between them; at slot 4 a TICK there shifts what the first write left. -/
theorem setledsClearsThenSets : Obligations.SetledsClearsThenSets := by
  intro bits mask s
  have frame := setledsWith_frame Config.board bits mask s
  have boundary : ∀ n rest, s.gaps = n :: rest → setledsWith Config.board bits mask s =
      setLedBits bits (ticks Config.board n { s with led := s.led &&& ~~~mask, gaps := rest }) := fun n rest hg => by
    rw [setledsWith_eq, gap_cons Config.board (clearLedBits mask s) hg]
    rfl
  refine ⟨fun hi => hostCommand_refusedBeforeInit _ _ hi,
    fun hi => ⟨_, exec_setleds_of_initialised bits mask hi, frame⟩, fun hi hg => ?quiet, fun n rest hi hg => ?boundary,
    fun hi hidx ht hg => ⟨_, exec_setleds_of_initialised bits mask hi, frame.led, ?shifted⟩⟩
  case quiet => rw [exec_setleds_of_initialised bits mask hi, setledsWith_quiet Config.board bits mask hg]
  case boundary =>
    exact (exec_setleds_of_initialised bits mask hi).trans (congrArg Host.Outcome.next (boundary n rest hg))
  case shifted =>
    rw [boundary 1 [] hg, setLedBits_trace, ticks_one, tick_trace, slotByte_eq, hidx]
    · rfl
    · exact ht

/-- Settles O28: CLEARLEDS is one write. -/
theorem clearledsClearsTheMask : Obligations.ClearledsClearsTheMask :=
  fun _ _ => ⟨fun hi => hostCommand_of_initialised _ _ hi, fun hi => hostCommand_refusedBeforeInit _ _ hi⟩

end Sys2Proof
end

section
/-! SUPPORT. One POLL by the branch it takes, and its delivery (42_classifier.md R167-R178). -/

namespace Sys2Proof.Machine

/-! The comparisons of time on the board (00_scope.md R13). -/

theorem before_board (a b : Time) : before Config.board a b = decide (2 ^ 31 ≤ (a - b).toNat) := before_modular rfl a b

theorem reached_board (a b : Time) : reached Config.board a b = decide ((a - b).toNat < 2 ^ 31) := by
  rw [reached_eq, before_board, ← decide_not, decide_eq_decide, Nat.not_le]

/-- A window of 200 ms from t1 on is open until 200 ms have passed, wherever the clock wraps. -/
theorem window_open_iff {now t1 : Time} (hrange : (now - t1).toNat < 2 ^ 31) :
    2 ^ 31 ≤ (now - (t1 + 200)).toNat ↔ (now - t1).toNat < 200 := by
  have h := half_le_toNat_sub_iff (W := 32) (now := (now - t1).toNat) (deadline := 200) (by decide)
    (by constructor <;> omega)
  rw [BitVec.ofNat_toNat, BitVec.setWidth_eq, sub_sub] at h
  exact h

/-! The delivery of one event (42_classifier.md R178). -/

@[simp] theorem delivered_of_none (k : EventKind) (stable : Byte) : delivered 0 k stable = [] := if_pos rfl

theorem delivered_of_handler {h : HandlerId} (hh : h ≠ 0) (k : EventKind) (stable : Byte) :
    delivered h k stable = [⟨h, Config.board.eventCode.of k ||| stable.setWidth 16⟩] := if_neg hh

theorem length_delivered_le (h : HandlerId) (k : EventKind) (stable : Byte) : (delivered h k stable).length ≤ 1 := by
  rw [delivered]
  split
  · exact Nat.zero_le 1
  · exact Nat.le_refl 1

theorem word_of_mem_delivered {h : HandlerId} {k : EventKind} {stable : Byte} {e : Emit} (he : e ∈ delivered h k stable) :
    e.word = Config.board.eventCode.of k ||| stable.setWidth 16 := by
  rw [delivered] at he
  split at he
  · cases he
  · rw [List.mem_singleton.mp he]

/-! The three branches, told apart by the combination a POLL leaves (42_classifier.md R167). -/

section Branches

variable {now : Time} {s t : State}

/-- A POLL after INIT answers what `pollWith` leaves. -/
theorem pollWith_of_exec (hi : s.initialised = true) (h : exec (.poll now) s = .next t) :
    pollWith Config.board now s = t :=
  Host.Outcome.next.inj ((exec_poll_of_initialised now hi).symm.trans h)

/-- The zero branch (42_classifier.md R167). -/
theorem poll_zero (ht : pollWith Config.board now s = t) (h0 : t.stable = 0) :
    t.longPress = false ∧ t.rptDeadline = 0 ∧ t.lastCombo = s.lastCombo ∧ t.dblDeadline = s.dblDeadline ∧
      t.emits = s.emits := by
  subst ht
  obtain ⟨u, -, -, -, -, -, -, -, -, hzero | hchange | hheld⟩ := poll_cases now s
  · exact hzero.2
  · exact absurd h0 hchange.1
  · exact absurd h0 hheld.1

/-- The change branch: the repeat is put off, and a new press is judged on the old combination and window, then replaces
them (42_classifier.md R168-R171). -/
theorem poll_change (ht : pollWith Config.board now s = t) (h0 : t.stable ≠ 0) (hne : t.stable ≠ s.lastStable) :
    t.longPress = false ∧ t.rptDeadline = now + Config.board.tHold ∧
      (AdoptsPress s t.raw → t.lastCombo = t.stable ∧ t.dblDeadline = now + Config.board.tDblclick ∧
        t.emits = s.emits ++ delivered s.handler
          (if t.stable = s.lastCombo ∧ 2 ^ 31 ≤ (now - s.dblDeadline).toNat then .double else .press) t.stable) ∧
      (¬ AdoptsPress s t.raw → t.lastCombo = s.lastCombo ∧ t.dblDeadline = s.dblDeadline ∧ t.emits = s.emits) := by
  subst ht
  obtain ⟨u, -, -, -, -, -, -, -, -, hzero | ⟨-, -, hlong, hrpt, hchange⟩ | ⟨-, heq, -⟩⟩ := poll_cases now s
  · exact absurd hzero.1 h0
  · simp only [before_board, decide_eq_true_eq] at hchange
    rcases hchange with ⟨hpress, hdone⟩ | ⟨hno, hdone⟩
    · exact ⟨hlong, hrpt, fun _ => hdone, fun hno => absurd hpress hno⟩
    · exact ⟨hlong, hrpt, fun hpress => absurd hpress hno, fun _ => hdone⟩
  · exact absurd heq hne

/-- The held branch: a repeat that is due, or nothing (42_classifier.md R172-R174). -/
theorem poll_held (ht : pollWith Config.board now s = t) (h0 : t.stable ≠ 0) (heq : t.stable = s.lastStable) :
    t.lastCombo = s.lastCombo ∧ t.dblDeadline = s.dblDeadline ∧
      if (now - s.rptDeadline).toNat < 2 ^ 31 then
        t.longPress = true ∧ t.rptDeadline = s.rptDeadline + Config.board.tRepeat ∧
          t.emits = s.emits ++ delivered s.handler (if s.longPress then .auto else .hold) t.stable
      else t.longPress = s.longPress ∧ t.rptDeadline = s.rptDeadline ∧ t.emits = s.emits := by
  subst ht
  obtain ⟨u, -, -, -, -, -, -, -, -, hzero | ⟨-, hne, -⟩ | ⟨-, -, hcombo, hdbl, hheld⟩⟩ := poll_cases now s
  · exact absurd hzero.1 h0
  · exact absurd heq hne
  · rw [reached_board, decide_eq_true_iff, decide_eq_false_iff_not] at hheld
    refine ⟨hcombo, hdbl, ?_⟩
    rcases hheld with ⟨hdue, hdone⟩ | ⟨hnot, hdone⟩
    · rw [if_pos hdue]
      exact hdone
    · rw [if_neg hnot]
      exact hdone

/-- Without a new press no branch touches the double-click fields (42_classifier.md R167, R171, R172). -/
theorem poll_dblclick_of_no_press (ht : pollWith Config.board now s = t) (hno : ¬ AdoptsPress s t.raw) :
    t.lastCombo = s.lastCombo ∧ t.dblDeadline = s.dblDeadline := by
  by_cases h0 : t.stable = 0
  · obtain ⟨-, -, hcombo, hdbl, -⟩ := poll_zero ht h0
    exact ⟨hcombo, hdbl⟩
  · by_cases heq : t.stable = s.lastStable
    · obtain ⟨hcombo, hdbl, -⟩ := poll_held ht h0 heq
      exact ⟨hcombo, hdbl⟩
    · obtain ⟨-, -, -, hsilent⟩ := poll_change ht h0 heq
      obtain ⟨hcombo, hdbl, -⟩ := hsilent hno
      exact ⟨hcombo, hdbl⟩

/-- Without a new press a POLL that ends the old combination delivers nothing (42_classifier.md R167, R171). -/
theorem poll_emits_of_no_press (ht : pollWith Config.board now s = t) (hno : ¬ AdoptsPress s t.raw)
    (hne : t.stable ≠ s.lastStable) : t.emits = s.emits := by
  by_cases h0 : t.stable = 0
  · obtain ⟨-, -, -, -, hemits⟩ := poll_zero ht h0
    exact hemits
  · obtain ⟨-, -, -, hsilent⟩ := poll_change ht h0 hne
    obtain ⟨-, -, hemits⟩ := hsilent hno
    exact hemits

/-- Without a new press a POLL delivers nothing but a HOLD or an AUTO (42_classifier.md R167, R171, R172). -/
theorem poll_repeat_or_silent_of_no_press (ht : pollWith Config.board now s = t) (hno : ¬ AdoptsPress s t.raw) :
    t.emits = s.emits ∨
      ∃ k, (k = .hold ∨ k = .auto) ∧ t.emits = s.emits ++ delivered s.handler k t.stable := by
  by_cases hheld : t.stable ≠ 0 ∧ t.stable = s.lastStable
  · obtain ⟨-, -, hrepeat⟩ := poll_held ht hheld.1 hheld.2
    split at hrepeat
    · obtain ⟨-, -, hemits⟩ := hrepeat
      refine .inr ⟨_, ?_, hemits⟩
      cases s.longPress
      · exact .inl rfl
      · exact .inr rfl
    · obtain ⟨-, -, hemits⟩ := hrepeat
      exact .inl hemits
  · by_cases h0 : t.stable = 0
    · obtain ⟨-, -, -, -, hemits⟩ := poll_zero ht h0
      exact .inl hemits
    · exact .inl (poll_emits_of_no_press ht hno fun heq => hheld ⟨h0, heq⟩)

/-- A POLL with a new press leaves some key down (42_classifier.md R164). -/
theorem poll_stable_ne_zero_of_press (ht : pollWith Config.board now s = t) (hpress : AdoptsPress s t.raw) :
    t.stable ≠ 0 := by
  subst ht
  obtain ⟨j, hopen, hdown, -⟩ := hpress
  intro h0
  have hbit := pollWith_stable_of_open now s j hopen
  rw [hdown, h0] at hbit
  exact absurd hbit (Bool.eq_false_iff.mp BitVec.getLsbD_zero)

end Branches

end Sys2Proof.Machine
end

section
/-! SUPPORT. A POLL without a handler: no part of it but the delivery reads the handler slot (42_classifier.md R178). -/

namespace Sys2Proof.Machine

variable {W CW ND NS NX NB : Nat}

/-- TICKs read no handler. -/
theorem ticks_writeHandler (P : Sized.Params W CW ND NS NX NB) (h : HandlerId) (n : Nat)
    (s : Sized.State W CW ND NS NX NB) : ticks P n (writeHandler h s) = writeHandler h (ticks P n s) := by
  induction n generalizing s with
  | zero => rfl
  | succ n ih =>
    cases ht : s.timerEnabled with
    | false =>
      simp only [ticks, writeHandler_timerEnabled, ht, Bool.false_eq_true, if_false]
      exact ih s
    | true =>
      rw [ticks_succ P n ht, ticks_succ P n (s := writeHandler h s) ht]
      exact ih (tick P s)

theorem gap_writeHandler (P : Sized.Params W CW ND NS NX NB) (h : HandlerId) (s : Sized.State W CW ND NS NX NB) :
    gap P (writeHandler h s) = writeHandler h (gap P s) := by
  cases hg : s.gaps with
  | nil => rw [gap_nil P s hg, gap_nil P (writeHandler h s) hg]
  | cons n rest =>
    rw [gap_cons P s hg, gap_cons P (writeHandler h s) hg]
    exact ticks_writeHandler P h n { s with gaps := rest }

/-- The folds read no handler (42_classifier.md R161). -/
theorem foldKeys_writeHandler {P : Sized.Params W CW ND NS NX NB} (hP : P.rawFold = .atomicBit) (h : HandlerId)
    (ks : List (Fin NX)) (s : Sized.State W CW ND NS NX NB) :
    foldKeys P ks (writeHandler h s) = writeHandler h (foldKeys P ks s) := by
  rw [foldKeys_eq_foldl hP, foldKeys_eq_foldl hP]
  exact List.foldl_hom (writeHandler h) fun u k => gap_writeHandler P h (foldPin P s.extraPin u k)

/-- The lanes read no handler (42_classifier.md R163, R164). -/
theorem debounce_writeHandler (P : Sized.Params W CW ND NS NX NB) (r : Byte) (h : HandlerId)
    (s : Sized.State W CW ND NS NX NB) :
    debounce P r (writeHandler h s) = (debounce P r s).map (writeHandler h) id :=
  List.foldl_hom (Prod.map (writeHandler h) id) (g₁ := debounceLane P r) (g₂ := debounceLane P r) (init := (s, false))
    fun _ _ => rfl

theorem changeBranch_writeHandler (P : Sized.Params W CW ND NS NX NB) (now : BitVec W) (np : Bool) (h : HandlerId)
    (s : Sized.State W CW ND NS NX NB) :
    changeBranch P now np (writeHandler h s) = (changeBranch P now np s).map (writeHandler h) id := by
  cases np <;> rfl

theorem heldBranch_writeHandler (P : Sized.Params W CW ND NS NX NB) (now : BitVec W) (h : HandlerId)
    (s : Sized.State W CW ND NS NX NB) :
    heldBranch P now (writeHandler h s) = (heldBranch P now s).map (writeHandler h) id := by
  rw [heldBranch, heldBranch, apply_ite (Prod.map (writeHandler h) id)]
  rfl

/-- The branches read no handler (42_classifier.md R167-R174). -/
theorem classify_writeHandler (P : Sized.Params W CW ND NS NX NB) (now : BitVec W) (np : Bool) (h : HandlerId)
    (s : Sized.State W CW ND NS NX NB) :
    classify P now np (writeHandler h s) = (classify P now np s).map (writeHandler h) id := by
  rw [classify, classify, apply_ite (Prod.map (writeHandler h) id), apply_ite (Prod.map (writeHandler h) id),
    changeBranch_writeHandler, heldBranch_writeHandler]
  rfl

/-- Without a handler there is no delivery (42_classifier.md R178). -/
theorem deliver_writeHandler_zero (P : Sized.Params W CW ND NS NX NB) (kind : Option EventKind)
    (s : Sized.State W CW ND NS NX NB) :
    deliver P kind (writeHandler 0 s) = { deliver P kind s with handler := 0, emits := s.emits } := by
  rw [deliver_eq P kind s]
  cases kind with
  | none => rfl
  | some k => rw [deliver, if_neg (not_not_intro (writeHandler_handler s 0)), writeHandler]

/-- Without a handler the snapshot step does everything but the delivery (42_classifier.md R178). -/
theorem snapshotStep_writeHandler_zero (hNB : NB ≤ 8) (P : Sized.Params W CW ND NS NX NB) (now : BitVec W)
    (s : Sized.State W CW ND NS NX NB) :
    snapshotStep P now (writeHandler 0 s) = { snapshotStep P now s with handler := 0, emits := s.emits } := by
  have hemits : (commit (classify P now (debounce P s.raw s).2 (debounce P s.raw s).1).1).emits = s.emits := by
    rw [commit, classify_rest, debounce_rest hNB]
  have hdeliver := deliver_writeHandler_zero P (classify P now (debounce P s.raw s).2 (debounce P s.raw s).1).2
    (commit (classify P now (debounce P s.raw s).2 (debounce P s.raw s).1).1)
  rw [hemits] at hdeliver
  simp only [snapshotStep, writeHandler_raw, debounce_writeHandler, Prod.map_fst, Prod.map_snd, classify_writeHandler]
  exact hdeliver

theorem pollWith_writeHandler_zero (hNB : NB ≤ 8) {P : Sized.Params W CW ND NS NX NB} (hP : P.rawFold = .atomicBit)
    (now : BitVec W) (s : Sized.State W CW ND NS NX NB) :
    pollWith P now (writeHandler 0 s) = { pollWith P now s with handler := 0, emits := s.emits } := by
  have hemits : (foldKeys P (List.finRange NX) s).emits = s.emits := by
    rw [(foldKeys_frame P (List.finRange NX) s).rest]
  rw [pollWith, foldKeys_writeHandler hP, snapshotStep_writeHandler_zero hNB, hemits, pollWith]

end Sys2Proof.Machine
end

section
/-! SUPPORT. The raw bits and pin reads of a POLL (42_classifier.md R161). -/

namespace Sys2Proof.Machine

variable {W CW ND NS NX NB : Nat}

/-- Folds and the TICKs between them leave the raw bits alone that neither the keys' folds nor a slot's TICK writes
(20_memory.md R66). -/
theorem foldl_foldThenGap_raw_of_ne (P : Sized.Params W CW ND NS NX NB) (pins : Vector PinId NX) (ks : List (Fin NX))
    (s : Sized.State W CW ND NS NX NB) {j : Nat} (hj : NS ≤ j) (hks : ∀ k ∈ ks, j ≠ P.extraKeyBit[k].val) :
    (ks.foldl (foldThenGap P pins) s).raw.getLsbD j = s.raw.getLsbD j := by
  induction ks generalizing s with
  | nil => rfl
  | cons k ks ih =>
    obtain ⟨hk, hks⟩ := List.forall_mem_cons.mp hks
    rw [List.foldl_cons, ih _ hks, foldThenGap, (gap_frame P _).high j hj]
    exact getLsbD_setBit_of_ne _ _ _ _ hk

/-- A POLL leaves an unconfigured key's raw bit alone (42_classifier.md R161, 20_memory.md R66). -/
theorem pollWith_raw_of_unconfigured (now : Time) (s : State) (k : Fin 3) (hk : s.extraCfg[k] = false) :
    (pollWith Config.board now s).raw.getLsbD (5 + k.val) = s.raw.getLsbD (5 + k.val) := by
  obtain ⟨hraw, -⟩ := pollWith_after_folds now (foldKeys_eq_foldl rfl (List.finRange 3) s)
  rw [hraw]
  refine foldl_foldThenGap_raw_of_ne _ _ _ _ (Nat.le_add_right 5 _) fun k' hk' hbit => ?_
  rw [board_extraKeyBit] at hbit
  have heq : k' = k := Fin.ext (by omega)
  rw [heq, List.mem_filter] at hk'
  exact absurd (hk.symm.trans hk'.2) nofun

/-- With no TICK inside, a POLL leaves what the folds of the configured keys `ks` leave, whose pins answer `ls`
(42_classifier.md R161). -/
theorem pollWith_foldsDone (now : Time) {s : State} {ks : List (Fin 3)} {ls rest : List Bool}
    (hks : (List.finRange 3).filter (fun k => s.extraCfg[k]) = ks) (hg : s.gaps = []) (hlen : ls.length = ks.length)
    (henv : s.env = ls ++ rest) : FoldsDone Config.board s.extraPin ks ls rest s (pollWith Config.board now s) := by
  obtain ⟨hraw, -, htrace, hrest, -⟩ := pollWith_after_folds now (foldKeys_eq_foldl rfl (List.finRange 3) s)
  rw [hks, foldl_foldThenGap_quiet _ _ _ hg] at hraw htrace hrest
  have hbits : (ks.map (fun k => Config.board.extraKeyBit[k].val)).Nodup := by
    rw [← hks]
    exact (List.filter_sublist.map _).nodup keyBits_nodup
  obtain ⟨utrace, uenv, uown⟩ := foldsDone Config.board s.extraPin ks ls rest s hbits hlen henv
  exact ⟨htrace.trans utrace, hrest.trans uenv, by rw [hraw]; exact uown⟩

end Sys2Proof.Machine
end

section
/-! SUPPORT. Runs of commands with POLLs among them, and a lane locked out in them (42_classifier.md R166). -/

namespace Sys2Proof.Machine

/-! Which commands are POLLs. -/

theorem not_init_not_poll_of_betweenPolls {i : Instr} (h : betweenPolls i = true) : i ≠ .init ∧ isPoll i = false := by
  cases i with
  | init | sethandler _ | poll _ => cases h
  | _ => exact ⟨nofun, rfl⟩

theorem poll_of_ownsClassifier {i : Instr} (h : ownsClassifier i) : ∃ now, i = .poll now := by
  cases i with
  | poll now => exact ⟨now, rfl⟩
  | _ => cases h

theorem poll_of_isPoll {i : Instr} (h : isPoll i = true) : ∃ now, i = .poll now := by
  cases i with
  | poll now => exact ⟨now, rfl⟩
  | _ => cases h

/-! Runs. -/

theorem runAll_cons {i : Instr} {is : List Instr} {s t : State} (h : exec i s = .next t) :
    runAll (i :: is) s = runAll is t := by simp only [runAll, h]

theorem runAll_append {is js : List Instr} {s t : State} (h : runAll is s = .next t) :
    runAll (is ++ js) s = runAll js t := by
  induction is generalizing s with
  | nil => rw [List.nil_append, Host.Outcome.next.inj h]
  | cons i is ih =>
    cases hi : exec i s with
    | next u =>
      rw [runAll_cons hi] at h
      rw [List.cons_append, runAll_cons hi]
      exact ih h
    | fault f => simp only [runAll, hi, reduceCtorEq] at h
    | refused r => simp only [runAll, hi, reduceCtorEq] at h

/-- Commands that write neither the classifier's fields nor the handler slot, one after the other (20_memory.md R66). -/
theorem runAll_between_polls {is : List Instr} {s : State} (hi : s.initialised = true) (ht : s.timerEnabled = true)
    (his : ∀ i ∈ is, betweenPolls i = true) :
    ∃ t, runAll is s = .next t ∧ ClassifierFrame s t ∧ t.handler = s.handler := by
  induction is generalizing s with
  | nil => exact ⟨s, rfl, .ofTick (.refl s), rfl⟩
  | cons i is ih =>
    obtain ⟨hbetween, his⟩ := List.forall_mem_cons.mp his
    obtain ⟨hinit, hpoll⟩ := not_init_not_poll_of_betweenPolls hbetween
    obtain ⟨u, hu, fu, hhu⟩ := exec_between_polls i s hi ht hinit hpoll
    obtain ⟨t, ht, ft, hht⟩ := ih (fu.init.trans hi) (fu.timer.trans ht) his
    exact ⟨t, (runAll_cons hu).trans ht, fu.trans ft, hht.trans (hhu hbetween)⟩

/-! A lane locked out (42_classifier.md R165, R166). -/

/-- A POLL counts a locked lane down and leaves its stable bit alone (42_classifier.md R165). -/
theorem pollWith_locked (now : Time) (s : State) (j : Fin 6) (h : 0 < s.dbt[j].toNat) :
    (pollWith Config.board now s).dbt[j].toNat = s.dbt[j].toNat - 1 ∧
      (pollWith Config.board now s).stable.getLsbD j = s.stable.getLsbD j := by
  have hlock : s.dbt[j] ≠ 0 := fun h0 => by rw [h0] at h; exact absurd h (Nat.lt_irrefl 0)
  obtain ⟨hdbt, hstable⟩ := pollWith_lane (by decide) Config.board now s j
  rw [laneAt, laneStep_locked _ _ _ _ hlock] at hdbt hstable
  have hle : 1#8 ≤ s.dbt[j] := h
  exact ⟨(congrArg BitVec.toNat hdbt).trans (BitVec.toNat_sub_of_le hle), hstable⟩

/-- A lane stays locked as long as its counter outlasts the POLLs (42_classifier.md R166 items 1 and 3). -/
theorem runAll_locked (j : Fin 6) {is : List Instr} {s : State} (hi : s.initialised = true)
    (ht : s.timerEnabled = true) (hinit : .init ∉ is) (hcount : is.countP isPoll ≤ s.dbt[j].toNat) :
    ∃ t, runAll is s = .next t ∧ t.dbt[j].toNat = s.dbt[j].toNat - is.countP isPoll ∧
      t.stable.getLsbD j = s.stable.getLsbD j := by
  induction is generalizing s with
  | nil => exact ⟨s, rfl, rfl, rfl⟩
  | cons i is ih =>
    obtain ⟨hne, hrest⟩ := not_or.mp (mt List.mem_cons.mpr hinit)
    cases hp : isPoll i with
    | false =>
      rw [List.countP_cons_of_neg (Bool.eq_false_iff.mp hp)] at hcount ⊢
      obtain ⟨u, hu, fu, -⟩ := exec_between_polls i s hi ht (Ne.symm hne) hp
      rw [← fu.dbt] at hcount ⊢
      rw [← fu.stable, runAll_cons hu]
      exact ih (fu.init.trans hi) (fu.timer.trans ht) hrest hcount
    | true =>
      rw [List.countP_cons_of_pos hp] at hcount ⊢
      obtain ⟨now, rfl⟩ := poll_of_isPoll hp
      obtain ⟨hdbt, hstable⟩ := pollWith_locked now s j (by omega)
      have owners := OwnersOnly.pollWith now s
      obtain ⟨t, hrun, tdbt, tstable⟩ := ih (s := pollWith Config.board now s) (owners.initialised.trans hi)
        (owners.timerEnabled.trans ht) hrest (by omega)
      exact ⟨t, (runAll_cons (exec_poll_of_initialised now hi)).trans hrun, by omega, tstable.trans hstable⟩

end Sys2Proof.Machine
end

section
/-! SUPPORT. A combination held, with a POLL at every ms (42_classifier.md R172, R181(b)). -/

namespace Sys2Proof.Machine

/-- How many HOLDs and AUTOs are due n ms after the press: one at T_HOLD = 500, and one every T_REPEAT = 50 from there. -/
def repeatsBy (n : Nat) : Nat := if n < 500 then 0 else 1 + (n - 500) / 50

theorem repeatsBy_of_lt {n : Nat} (h : n < 500) : repeatsBy n = 0 := if_pos h

theorem repeatsBy_of_ge {n : Nat} (h : 500 ≤ n) : repeatsBy n = 1 + (n - 500) / 50 := if_neg (Nat.not_lt.mpr h)

/-- The next repeat is still to come, and comes within T_HOLD. -/
theorem repeatsBy_bounds (n : Nat) : n < 500 + 50 * repeatsBy n ∧ 500 + 50 * repeatsBy n ≤ n + 500 := by
  rcases Nat.lt_or_ge n 500 with hfirst | hlater
  · rw [repeatsBy_of_lt hfirst]
    omega
  · rw [repeatsBy_of_ge hlater]
    omega

theorem repeatsBy_succ (n : Nat) :
    repeatsBy (n + 1) = if n + 1 = 500 + 50 * repeatsBy n then repeatsBy n + 1 else repeatsBy n := by
  rcases Nat.lt_trichotomy (n + 1) 500 with hbefore | hfirst | hlater
  · rw [repeatsBy_of_lt hbefore, repeatsBy_of_lt (by omega), if_neg (by omega)]
  · rw [hfirst, repeatsBy_of_ge (Nat.le_refl _), repeatsBy_of_lt (by omega), if_pos rfl]
  · rw [repeatsBy_of_ge (by omega), repeatsBy_of_ge (by omega)]
    split <;> omega

/-- The repeat deadline after c repeats of a press at t0 (42_classifier.md R170, R174). -/
def repeatDeadline (t0 : Time) (c : Nat) : Time := t0 + BitVec.ofNat 32 (500 + 50 * c)

theorem repeatDeadline_succ (t0 : Time) (c : Nat) :
    repeatDeadline t0 (c + 1) = repeatDeadline t0 c + Config.board.tRepeat := by
  have h50 : Config.board.tRepeat = BitVec.ofNat 32 50 := rfl
  rw [repeatDeadline, repeatDeadline, h50, BitVec.add_assoc, ← BitVec.ofNat_add]
  congr 2

/-- n + 1 ms after the press the next repeat is due exactly when its deadline is now, wherever the clock wraps
(00_scope.md R13). -/
theorem repeat_due_iff (t0 : Time) (n : Nat) :
    (t0 + BitVec.ofNat 32 (n + 1) - repeatDeadline t0 (repeatsBy n)).toNat < 2 ^ 31 ↔
      n + 1 = 500 + 50 * repeatsBy n := by
  obtain ⟨hfuture, hsoon⟩ := repeatsBy_bounds n
  have hrange : withinClockRange 32 (n + 1) (500 + 50 * repeatsBy n) := by
    constructor <;> omega
  have hsign := half_le_toNat_sub_iff (by decide) hrange
  rw [repeatDeadline, add_sub_add_left_eq_sub, ← Nat.not_le, hsign]
  omega

/-- The c-th repeat's delivery: HOLD, then AUTOs (42_classifier.md R172, R178). -/
def repeatEmit (h : HandlerId) (C : Byte) (c : Nat) : Emit :=
  ⟨h, (if c = 0 then 0x0400#16 else 0x0800#16) ||| C.setWidth 16⟩

/-- Combination C is held since a press at t0, with c repeats delivered to the handler h after the deliveries es. -/
structure Held (h : HandlerId) (C : Byte) (t0 : Time) (es : List Emit) (c : Nat) (s : State) : Prop where
  initialised : s.initialised = true
  timerEnabled : s.timerEnabled = true
  handler : s.handler = h
  stable : s.stable = C
  last : s.lastStable = C
  longPress : s.longPress = (c != 0)
  rpt : s.rptDeadline = repeatDeadline t0 c
  emits : s.emits = es ++ (List.range c).map (repeatEmit h C)

section Held

variable {h : HandlerId} {C : Byte} {t0 : Time} {es : List Emit} {s t : State}

/-- What POLL leaves alone does not end the hold. -/
theorem Held.of_frame {c : Nat} (hs : Held h C t0 es c s) (f : ClassifierFrame s t) (hh : t.handler = s.handler) :
    Held h C t0 es c t where
  initialised := f.init.trans hs.initialised
  timerEnabled := f.timer.trans hs.timerEnabled
  handler := hh.trans hs.handler
  stable := f.stable.trans hs.stable
  last := f.last.trans hs.last
  longPress := f.lp.trans hs.longPress
  rpt := f.rpt.trans hs.rpt
  emits := f.emits.trans hs.emits

/-- The POLL n + 1 ms after the press delivers the next repeat when that is due, else nothing. -/
theorem Held.poll {n : Nat} (hh : h ≠ 0) (hC : C ≠ 0) (hs : Held h C t0 es (repeatsBy n) s)
    (ht : pollWith Config.board (t0 + BitVec.ofNat 32 (n + 1)) s = t) (hstable : t.stable = C) :
    Held h C t0 es (repeatsBy (n + 1)) t := by
  have owners := OwnersOnly.pollWith (t0 + BitVec.ofNat 32 (n + 1)) s
  have hlast := pollWith_lastStable Config.board (t0 + BitVec.ofNat 32 (n + 1)) s
  rw [ht] at owners hlast
  have thandler : t.handler = h := (owners.handler.resolve_left id).trans hs.handler
  obtain ⟨-, -, hrepeat⟩ := poll_held ht (hstable ▸ hC) (hstable.trans hs.last.symm)
  rw [hs.rpt, if_congr (repeat_due_iff t0 n) rfl rfl, hs.handler, hstable, delivered_of_handler hh, hs.longPress,
    hs.emits] at hrepeat
  have tHeld := fun c => Held.mk (t0 := t0) (es := es) (c := c) (owners.initialised.trans hs.initialised)
    (owners.timerEnabled.trans hs.timerEnabled) thandler hstable (hlast.trans hstable)
  rw [repeatsBy_succ]
  by_cases hdue : n + 1 = 500 + 50 * repeatsBy n
  · rw [if_pos hdue] at hrepeat ⊢
    obtain ⟨hlong, hrpt, hemits⟩ := hrepeat
    refine tHeld _ hlong (hrpt.trans (repeatDeadline_succ t0 _).symm) ?_
    rw [hemits, List.range_succ, List.map_append, ← List.append_assoc]
    cases repeatsBy n <;> rfl
  · rw [if_neg hdue] at hrepeat ⊢
    obtain ⟨hlong, hrpt, hemits⟩ := hrepeat
    exact tHeld _ hlong hrpt hemits

/-- A POLL at every ms from n ms after the press on, as long as each leaves C (42_classifier.md R181(b)). -/
theorem Held.pollEveryMs {n : Nat} {blocks : List (List Instr)} (hh : h ≠ 0) (hC : C ≠ 0)
    (hs : Held h C t0 es (repeatsBy n) s) (hblocks : ∀ b ∈ blocks, ∀ i ∈ b, betweenPolls i = true)
    (hstable : ∀ k, k ≤ blocks.length →
      ∀ u, runAll (pollEveryMs (t0 + BitVec.ofNat 32 n) (blocks.take k)) s = .next u → u.stable = C) :
    ∃ t, runAll (pollEveryMs (t0 + BitVec.ofNat 32 n) blocks) s = .next t ∧
      Held h C t0 es (repeatsBy (n + blocks.length)) t := by
  induction blocks generalizing n s with
  | nil => exact ⟨s, rfl, hs⟩
  | cons b bs ih =>
    obtain ⟨hb, hbs⟩ := List.forall_mem_cons.mp hblocks
    have hnow : t0 + BitVec.ofNat 32 n + 1 = t0 + BitVec.ofNat 32 (n + 1) := by
      rw [BitVec.ofNat_add, BitVec.add_assoc]
      rfl
    obtain ⟨u, hu, fu, hhu⟩ := runAll_between_polls hs.initialised hs.timerEnabled hb
    have hsu := hs.of_frame fu hhu
    have hrun : ∀ cs, runAll (Machine.pollEveryMs (t0 + BitVec.ofNat 32 n) (b :: cs)) s =
        runAll (Machine.pollEveryMs (t0 + BitVec.ofNat 32 (n + 1)) cs)
          (pollWith Config.board (t0 + BitVec.ofNat 32 (n + 1)) u) := fun cs => by
      rw [Machine.pollEveryMs, hnow, runAll_append hu, runAll_cons (exec_poll_of_initialised _ hsu.initialised)]
    have hpoll := hsu.poll hh hC rfl (hstable 1 (by simp) _ (hrun []))
    obtain ⟨t, ht, htheld⟩ := ih hpoll hbs fun k hk v hv => hstable (k + 1) (Nat.succ_le_succ hk) v ((hrun _).trans hv)
    rw [Nat.add_right_comm] at htheld
    exact ⟨t, (hrun bs).trans ht, htheld⟩

end Held

end Sys2Proof.Machine
end

section
/-! PROOFS. The obligations of 42_classifier.md. -/

namespace Sys2Proof

open Sys2Proof.Machine

/-- Settles O36: this hardware's POLL is the POLL of any size at its own sizes. -/
theorem pollDebouncesSixLanes : Obligations.PollDebouncesSixLanes :=
  fun now s hi => pollDebouncesEveryLaneAtAnySize 32 8 4 5 3 6 Config.board now s (by decide) hi

/-- Settles O37: with no stable key the POLL takes the zero branch. -/
theorem pollWithNoKeysIsSilent : Obligations.PollWithNoKeysIsSilent :=
  fun now _ hi => ⟨_, exec_poll_of_initialised now hi, poll_zero rfl⟩

/-- Settles O38: another combination takes the change branch. -/
theorem pollChangeIsPressOrDouble : Obligations.PollChangeIsPressOrDouble :=
  fun now _ hi => ⟨_, exec_poll_of_initialised now hi, poll_change rfl⟩

/-- Settles O39: the same combination takes the held branch. -/
theorem pollHeldIsHoldOrAuto : Obligations.PollHeldIsHoldOrAuto :=
  fun now _ hi => ⟨_, exec_poll_of_initialised now hi, poll_held rfl⟩

/-- Settles O40: the commit, the frame, the one delivery, and the raw bits that neither a fold nor a TICK writes. -/
theorem pollCommitsAndWritesOnlyItsFields : Obligations.PollCommitsAndWritesOnlyItsFields := by
  intro now s hi
  refine ⟨pollWith Config.board now s, exec_poll_of_initialised now hi, pollWith_lastStable _ now s,
    pollWith_rest _ now s, ?_, pollWith_raw_of_unconfigured now s, fun hg => pollWith_quiet now hg⟩
  rcases pollWith_emits now s with hsilent | ⟨-, k, hone⟩
  · exact ⟨[], hsilent.trans (List.append_nil _).symm, Nat.zero_le 1, fun _ => rfl⟩
  · exact ⟨_, hone, length_delivered_le _ _ _, fun hnone => by rw [hnone, delivered_of_none]⟩

/-- Settles O41: with no TICK inside, the configured keys' folds follow each other, each on its own raw bit. -/
theorem pollFoldsTheConfiguredKeys : Obligations.PollFoldsTheConfiguredKeys := by
  intro now s ls rest hi hg henv hlen
  obtain ⟨htrace, hrest, hown⟩ := pollWith_foldsDone now rfl hg hlen henv
  refine ⟨pollWith Config.board now s, exec_poll_of_initialised now hi, htrace, hrest, fun x hx => ?_,
    pollWith_raw_of_unconfigured now s, (pollWith_quiet now hg).2⟩
  rw [← board_extraKeyBit]
  exact hown x hx

/-- Settles O44: no part of a POLL but the delivery reads the handler slot. -/
theorem pollWithoutHandlerAdvancesAlike : Obligations.PollWithoutHandlerAdvancesAlike := by
  intro now s hi
  refine ⟨pollWith Config.board now s, exec_poll_of_initialised now hi, ?_⟩
  rw [← pollWith_writeHandler_zero (by decide) rfl now s]
  exact exec_poll_of_initialised now (s := writeHandler 0 s) hi

/-- Settles O45: without a new press only a repeat is delivered, and a key released ends the combination a repeat needs. -/
theorem releasesAreSilent : Obligations.ReleasesAreSilent := by
  intro now s t hi h hno
  have ht := pollWith_of_exec hi h
  constructor
  · rcases poll_repeat_or_silent_of_no_press ht hno with hsilent | ⟨k, hk, hemits⟩
    · exact ⟨[], hsilent.trans (List.append_nil _).symm, nofun⟩
    · refine ⟨_, hemits, fun e he => ?_⟩
      rw [word_of_mem_delivered he]
      rcases hk with rfl | rfl
      · exact .inl rfl
      · exact .inr rfl
  · rintro hlast ⟨j, hdown, hup⟩
    refine poll_emits_of_no_press ht hno fun heq => ?_
    rw [heq, hlast, hdown] at hup
    cases hup

/-- Settles O47: by induction on the commands, a POLL counts the lane down and no other command writes it. -/
theorem lockoutMasksBounce : Obligations.LockoutMasksBounce :=
  fun j _ _ hi ht hinit hcount => runAll_locked j hi ht hinit hcount

/-- Settles O48: by induction on the POLLs, each due repeat moves the deadline T_REPEAT on, which is how many are due. -/
theorem holdThenAutoRepeat : Obligations.HoldThenAutoRepeat := by
  intro t0 C s blocks hi ht hh hC hs hlast hlong hrpt hblocks hstable
  have hheld : Held s.handler C t0 s.emits (repeatsBy 0) s :=
    ⟨hi, ht, rfl, hs, hlast, hlong, hrpt, (List.append_nil _).symm⟩
  have hpolls := hheld.pollEveryMs hh hC hblocks
  rw [BitVec.add_zero] at hpolls
  obtain ⟨t, hrun, htheld⟩ := hpolls hstable
  rw [Nat.zero_add] at htheld
  exact ⟨t, hrun, htheld.emits⟩

/-- Settles O52: a new press changes the combination, and its window's end less `now` is negative exactly within it; no
other command but INIT writes the remembered combination. -/
theorem secondPressWithin200IsDouble : Obligations.SecondPressWithin200IsDouble := by
  constructor
  · intro now t1 s t hi hh hlast hdbl hrange h hpress hcombo
    have ht := pollWith_of_exec hi h
    have hne : t.stable ≠ s.lastStable := (changeMeansALaneFlipped now s t hi hlast h).2 hpress
    obtain ⟨-, -, hnew, -⟩ := poll_change ht (poll_stable_ne_zero_of_press ht hpress) hne
    obtain ⟨-, -, hemits⟩ := hnew hpress
    have hwindow := (and_iff_right hcombo).trans (window_open_iff hrange)
    rw [hemits, delivered_of_handler hh, hdbl, if_congr hwindow rfl rfl]
    split <;> rfl
  · intro i s t h hinit hno
    rcases (OwnersOnly.exec hinit h).classifier with howns | hkept
    · obtain ⟨now, rfl⟩ := poll_of_ownsClassifier howns
      have hsilent : ¬ AdoptsPress s t.raw := hno.resolve_left fun hne => hne now rfl
      rcases hostCommand_next h with hpolled | hrefused
      · exact poll_dblclick_of_no_press hpolled.symm hsilent
      · rw [hrefused]
        exact ⟨rfl, rfl⟩
    · obtain ⟨-, -, -, hcombo, hdbl, -⟩ := hkept
      exact ⟨hcombo, hdbl⟩

end Sys2Proof
end

section
/-! SUPPORT. The directions and levels INIT's pin sequence leaves (43_control.md R202, 10_state.md R32). -/

namespace Sys2Proof.Machine

variable {W CW ND NS NX NB : Nat}

/-! Pin directions. -/

theorem pinDir_append_cfgIn (p : PinId) (es : List PinEvent) : pinDir p (es ++ [.cfgIn p]) = some .input := by
  rw [pinDir, List.foldl_append]
  exact if_pos rfl

theorem pinDir_append_cfgOut (p : PinId) (es : List PinEvent) : pinDir p (es ++ [.cfgOut p]) = some .output := by
  rw [pinDir, List.foldl_append]
  exact if_pos rfl

/-- Events none of which turns a pin keep its direction. -/
theorem pinDir_append_of_kept {p : PinId} {d : Option PinDir} {es fs : List PinEvent} (hes : pinDir p es = d)
    (hkeep : ∀ e ∈ fs, dirAfter p d e = d) : pinDir p (es ++ fs) = d := by
  rw [pinDir, List.foldl_append, ← pinDir, hes]
  exact List.foldlRecOn (motive := (· = d)) fs _ rfl (fun _ hd e he => hd.symm ▸ hkeep e he)

/-- A pin configured as an output, and never as an input, ends as an output. -/
theorem pinDir_append_of_outputs {p : PinId} (es : List PinEvent) {fs : List PinEvent} (hout : .cfgOut p ∈ fs)
    (hin : .cfgIn p ∉ fs) : pinDir p (es ++ fs) = some .output := by
  obtain ⟨as, bs, rfl⟩ := List.append_of_mem hout
  rw [List.append_cons, ← List.append_assoc, ← List.append_assoc]
  refine pinDir_append_of_kept (pinDir_append_cfgOut p _) (fun e he => ?_)
  cases e with
  | cfgOut q => exact ite_self _
  | cfgIn q => exact if_neg (fun hq => hin (by simp [← hq, he]))
  | _ => rfl

/-! The events of INIT's pin sequence. -/

theorem cfgOut_mem_initPins {P : Sized.Params W CW ND NS NX NB} {p : PinId} :
    .cfgOut p ∈ initPins P ↔ (∃ j : Fin ND, P.pinDigit[j] = p) ∨ p = P.pinClk ∨ p = P.pinData := by
  simp [initPins, digitsOff]

theorem cfgIn_mem_initPins {P : Sized.Params W CW ND NS NX NB} {p : PinId} :
    .cfgIn p ∈ initPins P ↔ p = P.pinSwRead := by
  simp [initPins, digitsOff]

theorem write_mem_initPins {P : Sized.Params W CW ND NS NX NB} {p : PinId} {l : Bool} :
    .write p l ∈ initPins P ↔
      ((∃ j : Fin ND, P.pinDigit[j] = p) ∧ offLevel P = l) ∨ (p = P.pinClk ∧ l = P.clkIdle) ∨
        (p = P.pinData ∧ l = false) := by
  simp [initPins, write_mem_digitsOff]

/-! What the sequence leaves. -/

/-- The read pin is configured after the output pins, and only levels are written after it. -/
theorem pinDir_initPins_swRead (P : Sized.Params W CW ND NS NX NB) (es : List PinEvent) :
    pinDir P.pinSwRead (es ++ initPins P) = some .input := by
  have hsplit : initPins P =
      (List.finRange ND).map (fun j => .cfgOut P.pinDigit[j]) ++ [.cfgOut P.pinClk, .cfgOut P.pinData] ++
        [.cfgIn P.pinSwRead] ++ (digitsOff P ++ [.write P.pinClk P.clkIdle, .write P.pinData false]) := by
    simp [initPins]
  rw [hsplit, ← List.append_assoc es, ← List.append_assoc es]
  refine pinDir_append_of_kept (pinDir_append_cfgIn _ _) (fun e he => ?_)
  obtain ⟨q, l, rfl⟩ : ∃ q l, e = .write q l := by
    simp only [digitsOff, List.mem_append, List.mem_map, List.mem_cons, List.not_mem_nil, or_false] at he
    rcases he with ⟨j, -, rfl⟩ | rfl | rfl <;> exact ⟨_, _, rfl⟩
  rfl

/-- A pin the sequence configures as an output ends as one, unless it is the read pin too. -/
theorem pinDir_initPins_output (P : Sized.Params W CW ND NS NX NB) (es : List PinEvent) {p : PinId}
    (hout : .cfgOut p ∈ initPins P) :
    pinDir p (es ++ initPins P) = if P.pinSwRead = p then some .input else some .output := by
  split
  case isTrue h => rw [← h, pinDir_initPins_swRead]
  case isFalse h => exact pinDir_append_of_outputs es hout (fun hin => h (cfgIn_mem_initPins.mp hin).symm)

/-- A pin the sequence writes one level only ends at that level. -/
theorem pinLevel_initPins {P : Sized.Params W CW ND NS NX NB} (es : List PinEvent) {p : PinId} {l : Bool}
    (hl : .write p l ∈ initPins P) (hall : ∀ l', .write p l' ∈ initPins P → l' = l) :
    pinLevel p (es ++ initPins P) = some l := by
  rw [pinLevel_append]
  exact foldl_levelAfter_of_writes (.inl hl) hall

section Levels

variable {P : Sized.Params W CW ND NS NX NB} (hP : OutputPinsApart P) (es : List PinEvent)

include hP

theorem pinLevel_initPins_digit (j : Fin ND) : pinLevel P.pinDigit[j] (es ++ initPins P) = some (offLevel P) := by
  refine pinLevel_initPins es (write_mem_initPins.mpr (.inl ⟨⟨j, rfl⟩, rfl⟩)) (fun l' h => ?_)
  rcases write_mem_initPins.mp h with ⟨-, hoff⟩ | ⟨hclk, -⟩ | ⟨hdata, -⟩
  · exact hoff.symm
  · exact absurd hclk (hP.digit_ne_clk j)
  · exact absurd hdata (hP.digit_ne_data j)

theorem pinLevel_initPins_clk : pinLevel P.pinClk (es ++ initPins P) = some P.clkIdle := by
  refine pinLevel_initPins es (write_mem_initPins.mpr (.inr (.inl ⟨rfl, rfl⟩))) (fun l' h => ?_)
  rcases write_mem_initPins.mp h with ⟨⟨j, hdigit⟩, -⟩ | ⟨-, hidle⟩ | ⟨hdata, -⟩
  · exact absurd hdigit (hP.digit_ne_clk j)
  · exact hidle
  · exact absurd hdata.symm hP.data_ne_clk

theorem pinLevel_initPins_data : pinLevel P.pinData (es ++ initPins P) = some false := by
  refine pinLevel_initPins es (write_mem_initPins.mpr (.inr (.inr ⟨rfl, rfl⟩))) (fun l' h => ?_)
  rcases write_mem_initPins.mp h with ⟨⟨j, hdigit⟩, -⟩ | ⟨hclk, -⟩ | ⟨-, hlow⟩
  · exact absurd hdigit (hP.digit_ne_data j)
  · exact absurd hclk hP.data_ne_clk
  · exact hlow

end Levels

/-- A digit-enable at OFF is not ON (00_scope.md R15). -/
theorem digitOn_of_pinLevel_off {P : Sized.Params W CW ND NS NX NB} {es : List PinEvent} {j : Fin ND}
    (h : pinLevel P.pinDigit[j] es = some (offLevel P)) : digitOn P es j = false := by
  rw [digitOn, h]
  simp [offLevel]

end Sys2Proof.Machine
end

section
/-! SUPPORT. SETEXTRAKEY by its key, the record a refusal leaves, and SETHANDLER's word (43_control.md R206, R209, R211;
60_exceptions.md R223). -/

namespace Sys2Proof.Machine

variable {W CW ND NS NX NB : Nat}

/-- A refusal sets the mark and records itself if it is the first (60_exceptions.md R221, R223). -/
theorem refuse_eq (r : Reason) (c : Word) (s : Sized.State W CW ND NS NX NB) :
    refuse r c s = { s with refused := true, firstRefusal := s.firstRefusal.or (some ⟨r, c⟩) } := by
  unfold refuse
  cases s.firstRefusal <;> rfl

/-- SETEXTRAKEY of an extra key before INIT (60_exceptions.md R222). -/
theorem exec_setextrakey_refusedBeforeInit {key : BitVec 2} {k : Fin 3} (pin : PinId) {s : State}
    (hk : keyIndex key = some k) (hi : s.initialised = false) :
    exec (.setextrakey key pin) s = .next (s.refusedBeforeInit (.setextrakey key pin)) := by
  rw [← hostCommand_refusedBeforeInit _ (fun s => configureKey k pin (drive [.cfgIn pin] s)) hi]
  simp only [exec, execSetextrakey, setextrakeyCommand, hk]

/-- SETEXTRAKEY of no extra key (60_exceptions.md R224; log 16). -/
theorem exec_setextrakey_of_no_key {key : BitVec 2} (pin : PinId) (s : State)
    (hk : (keyIndex key : Option (Fin 3)) = none) :
    exec (.setextrakey key pin) s = .next (refuse .badKey (encode (.setextrakey key pin)) s) := by
  simp only [exec, execSetextrakey, setextrakeyCommand, hk]

/-- A field placed at bit 0 is the field widened to a word. -/
theorem place_zero {n : Nat} (v : BitVec n) : place v 0 = v.setWidth 64 := BitVec.shiftLeft_zero _

end Sys2Proof.Machine
end

section
/-! PROOFS. The obligations of 43_control.md. -/

namespace Sys2Proof

open Sys2Proof.Machine

/-- Settles O17: each output pin is configured once and written one level, and the read pin is configured after them. -/
theorem initLeavesTheDisplayDark : Obligations.InitLeavesTheDisplayDark := by
  intro P es hdistinct
  have hP := outputPinsApart hdistinct
  have hdir : ∀ p, (∃ j : Fin 4, P.pinDigit[j] = p) ∨ p = P.pinClk ∨ p = P.pinData →
      pinDir p (es ++ initPins P) = if P.pinSwRead = p then some .input else some .output :=
    fun p hp => pinDir_initPins_output P es (cfgOut_mem_initPins.mpr hp)
  have hoff := pinLevel_initPins_digit hP es
  exact ⟨fun j => ⟨hoff j, digitOn_of_pinLevel_off (hoff j), hdir _ (.inl ⟨j, rfl⟩)⟩,
    pinLevel_initPins_clk hP es, hdir _ (.inr (.inl rfl)),
    pinLevel_initPins_data hP es, hdir _ (.inr (.inr rfl)), pinDir_initPins_swRead P es⟩

/-- Settles O16: INIT is one record update after its pin sequence, here written out at this hardware's sizes. -/
theorem initWritesTheInitColumn : Obligations.InitWritesTheInitColumn :=
  fun _ => rfl

/-- Settles O19: SETHANDLER is one write, and its operand is placed at bit 0. -/
theorem sethandlerWritesTheSlot : Obligations.SethandlerWritesTheSlot := by
  intro h s
  have hopcode : place (0x02 : BitVec 8) 56 = 0x0200000000000000 := by decide
  refine ⟨fun hi => hostCommand_of_initialised _ _ hi, fun hi => hostCommand_refusedBeforeInit _ _ hi, ?_⟩
  rw [encode, Instr.opcode, Instr.operands, hopcode, place_zero]

/-- Settles O20: keys A, B and C each name an extra key; a word with key 3 passes the reserved-bit check and no further. -/
theorem setextrakeyConfiguresTheKey : Obligations.SetextrakeyConfiguresTheKey := by
  constructor
  · intro k pin s
    exact ⟨exec_setextrakey_of_key pin (keyIndex_ofNat k), exec_setextrakey_refusedBeforeInit pin (keyIndex_ofNat k)⟩
  · intro c opcode reserved key
    rw [decode, decodeHost_setextrakey opcode, reserved, key]
    rfl

/-- Settles O21: key 3 names no extra key, and the refusal is recorded if it is the first. -/
theorem setextrakeyOfKeyThreeIsRefused : Obligations.SetextrakeyOfKeyThreeIsRefused := by
  intro pin s
  rw [exec_setextrakey_of_no_key pin s ((keyIndex_eq_none 3).mpr rfl), refuse_eq]

end Sys2Proof
end

section
/-! SUPPORT. HOST's commands refused before INIT, what a refusal's mark and record become in every step, and which commands
have a next state (60_exceptions.md R220-R223). -/

namespace Sys2Proof.Machine

variable {W CW ND NS NX NB : Nat}

/-! Refusals by a command and by the decoder. -/

/-- SETEXTRAKEY of an extra key is a HOST command (43_control.md R211). -/
theorem exec_setextrakey_eq_hostCommand {key : BitVec 2} {k : Fin 3} (pin : PinId) (s : State)
    (hk : keyIndex key = some k) :
    exec (.setextrakey key pin) s =
      hostCommand (encode (.setextrakey key pin)) (fun s => configureKey k pin (drive [.cfgIn pin] s)) s := by
  simp only [exec, execSetextrakey, setextrakeyCommand, hk]

/-- Every HOST command but INIT is refused by its own word (60_exceptions.md R222). -/
theorem exec_refusedBeforeInit {i : Instr} {s : State} (hwf : i.wellFormed = true) (hport : i.port = .host)
    (hinit : i ≠ .init) (hi : s.initialised = false) : exec i s = .next (s.refusedBeforeInit i) := by
  cases i with
  | init => exact absurd rfl hinit
  | tick => cases hport
  | setextrakey key pin =>
    cases hk : (keyIndex key : Option (Fin 3)) with
    | none => exact absurd ((keyIndex_eq_none key).mp hk) (bne_iff_ne.mp hwf)
    | some k => exact exec_setextrakey_refusedBeforeInit pin hk hi
  | _ =>
    rw [← refuse_notInitialised]
    exact hostCommand_of_uninitialised _ _ hi

/-- The refusal before INIT is recorded if it is the first (60_exceptions.md R223). -/
theorem refusedBeforeInit_firstRefusal {s : State} (i : Instr) (h : s.firstRefusal = none) :
    (s.refusedBeforeInit i).firstRefusal = some ⟨.notInitialised, encode i⟩ := by
  rw [← refuse_notInitialised, refuse_firstRefusal_none s _ _ h]

/-- A word that does not decode is recorded with the decoder's reason, if it is the first refused (60_exceptions.md R223). -/
theorem step_records_refused {s : State} {a : Arrival} {rest : List Arrival} {r : Reason} (hfirst : s.firstRefusal = none)
    (hin : s.inbox = a :: rest) (hdec : decode a.port a.word = .error r) :
    ∃ t, step s = .next t ∧ t.firstRefusal = some ⟨r, a.word⟩ :=
  ⟨_, step_of_refused hin hdec, refuse_firstRefusal_none (accept a rest s) r a.word hfirst⟩

/-! The mark and the record. -/

/-- From s to t the mark is not cleared and a record is not replaced (60_exceptions.md R221, R223). -/
structure RefusalKept (s t : State) : Prop where
  mark : s.refused = true → t.refused = true
  record : ∀ x, s.firstRefusal = some x → t.firstRefusal = some x

theorem RefusalKept.of_eq {s t : State} (hmark : t.refused = s.refused) (hrecord : t.firstRefusal = s.firstRefusal) :
    RefusalKept s t :=
  ⟨hmark.trans, fun _ => hrecord.trans⟩

theorem RefusalKept.trans {s t u : State} (h : RefusalKept s t) (k : RefusalKept t u) : RefusalKept s u :=
  ⟨fun hs => k.mark (h.mark hs), fun x hs => k.record x (h.record x hs)⟩

theorem RefusalKept.refuse (s : State) (r : Reason) (c : Word) : RefusalKept s (refuse r c s) :=
  ⟨fun _ => rfl, fun _ => refuse_firstRefusal_some s r c⟩

theorem RefusalKept.of_tickFrame {s t : State} (f : TickFrame s t) : RefusalKept s t :=
  .of_eq (by rw [f.rest]) (by rw [f.rest])

theorem RefusalKept.hostCommand {c : Word} {f : State → State} {s t : State} (h : hostCommand c f s = .next t)
    (hf : RefusalKept s (f s)) : RefusalKept s t := by
  rcases hostCommand_next h with rfl | rfl
  · exact hf
  · exact .refuse s _ c

theorem RefusalKept.writeDigits (ps : List (Fin 4)) (pattern : Fin 4 → Byte) (s : State) :
    RefusalKept s (writeDigits Config.board ps pattern s) :=
  have digits : RefusalKept s { s with digit := digitsWritten ps pattern s.digit } := .of_eq rfl rfl
  digits.trans (.of_tickFrame (writeDigits_frame Config.board ps pattern s))

/-- Every command, INIT included, leaves the mark and the record as they were or refuses (60_exceptions.md R221). -/
theorem RefusalKept.exec {i : Instr} {s t : State} (h : exec i s = .next t) : RefusalKept s t := by
  cases i with
  | init =>
    cases h
    exact .of_eq rfl rfl
  | sethandler x => exact .hostCommand h (.of_eq rfl rfl)
  | setextrakey key pin =>
    cases hk : (keyIndex key : Option (Fin 3)) with
    | none =>
      rw [exec_setextrakey_of_no_key pin s hk] at h
      cases h
      exact .refuse s _ _
    | some k =>
      rw [exec_setextrakey_eq_hostCommand pin s hk] at h
      exact .hostCommand h (.of_eq rfl rfl)
  | showSegs d0 d1 d2 d3 => exact .hostCommand h (.writeDigits _ _ s)
  | shownum n start => exact .hostCommand h (.writeDigits _ _ s)
  | clear => exact .hostCommand h (.writeDigits _ _ s)
  | setleds bits mask =>
    have led : RefusalKept s { s with led := s.led &&& ~~~mask ||| bits } := .of_eq rfl rfl
    exact .hostCommand h (led.trans (.of_tickFrame (setledsWith_frame Config.board bits mask s)))
  | clearleds mask => exact .hostCommand h (.of_eq rfl rfl)
  | poll now => exact .hostCommand h (.of_eq (by rw [pollWith_rest]) (by rw [pollWith_rest]))
  | tick =>
    obtain rfl := exec_tick_next h
    exact .of_tickFrame (tick_frame _ s)

theorem RefusalKept.step {s t : State} (h : step s = .next t) : RefusalKept s t := by
  cases hin : s.inbox with
  | nil =>
    rw [step_of_idle hin] at h
    cases h
    exact .of_eq rfl rfl
  | cons a rest =>
    have taken : RefusalKept s (accept a rest s) := .of_eq rfl rfl
    cases hdec : decode a.port a.word with
    | error r =>
      rw [step_of_refused hin hdec] at h
      cases h
      exact taken.trans (.refuse _ r a.word)
    | ok i =>
      rw [step_of_decode hin hdec] at h
      exact taken.trans (.exec h)

/-! Next states. -/

/-- A HOST command takes effect or is refused: either way it has a next state (60_exceptions.md R220). -/
theorem hostCommand_hasNext (c : Word) (f : Sized.State W CW ND NS NX NB → Sized.State W CW ND NS NX NB)
    (s : Sized.State W CW ND NS NX NB) : ∃ t, hostCommand c f s = .next t := by
  cases hi : s.initialised with
  | true => exact ⟨_, hostCommand_of_initialised c f hi⟩
  | false => exact ⟨_, hostCommand_of_uninitialised c f hi⟩

/-- Every command has a next state, a TICK while TIMER is enabled (60_exceptions.md R220, 40_refresh.md R101). -/
theorem exec_hasNext (i : Instr) (s : State) (htick : i = .tick → s.timerEnabled = true) : ∃ t, exec i s = .next t := by
  cases i with
  | init => exact ⟨_, rfl⟩
  | tick => exact ⟨_, exec_tick_of_enabled (htick rfl)⟩
  | setextrakey key pin =>
    cases hk : (keyIndex key : Option (Fin 3)) with
    | none => exact ⟨_, exec_setextrakey_of_no_key pin s hk⟩
    | some k =>
      rw [exec_setextrakey_eq_hostCommand pin s hk]
      exact hostCommand_hasNext _ _ s
  | _ => exact hostCommand_hasNext _ _ s

end Sys2Proof.Machine
end

section
/-! PROOFS. The obligations of 60_exceptions.md. -/

namespace Sys2Proof

open Sys2Proof.Machine

/-- Settles O10: a refusal is one record update, on the arrival taken or on the command's state, and no step clears the mark. -/
theorem refusalsChangeOnlyTheMark : Obligations.RefusalsChangeOnlyTheMark := by
  refine ⟨fun s a rest r hin hdec => ?_, fun s i => exec_refusedBeforeInit, fun s t hstep haccepted => ?_⟩
  · rw [step_of_refused hin hdec, refuse_eq]
    rfl
  · exact Bool.eq_false_iff.mpr fun hs => Bool.eq_false_iff.mp haccepted ((RefusalKept.step hstep).mark hs)

/-- Settles O11: before INIT a HOST command is refused by its own word, INIT is one record update, and TIMER is disabled. -/
theorem onlyInitRunsBeforeInit : Obligations.OnlyInitRunsBeforeInit := by
  intro s hi htimer hfirst
  refine ⟨fun i hwf hport hinit => ?_, ⟨_, rfl, rfl, hfirst⟩, fun t => ?_⟩
  · exact ⟨_, exec_refusedBeforeInit hwf hport hinit hi, rfl, refusedBeforeInit_firstRefusal i hfirst, hi⟩
  · rw [exec_tick_of_disabled (htimer.trans hi)]
    nofun

/-- Settles O12: the step records the decoder's reason for a word that does not decode, and NotInitialised only after
decoding. -/
theorem refusalReasonPriority : Obligations.RefusalReasonPriority := by
  obtain ⟨illegalOpcode, reservedBits, -, tickFromHost, notTimerCommand, -⟩ := illegalEncodingsAreRefused
  obtain ⟨-, badKey⟩ := setextrakeyConfiguresTheKey
  intro s c g rest hfirst
  refine ⟨fun hin => ?_, fun hin hc => step_records_refused hfirst hin (notTimerCommand c hc)⟩
  refine ⟨fun row hrow opcode hmatch => step_records_refused hfirst hin (reservedBits c row hrow opcode hmatch),
    fun opcode reserved key => step_records_refused hfirst hin (badKey c opcode reserved key), fun hc => ?_,
    fun unknown => step_records_refused hfirst hin (illegalOpcode c unknown), fun i hdec hinit hi => ?_⟩
  · subst hc
    exact step_records_refused hfirst hin tickFromHost
  · obtain ⟨hwf, hport, rfl⟩ := encodeOfDecodeIsTheWord _ _ _ hdec
    rw [step_of_decode hin hdec]
    exact ⟨_, exec_refusedBeforeInit hwf hport hinit hi, refusedBeforeInit_firstRefusal i hfirst⟩

/-- Settles O13: no step replaces a record. -/
theorem firstRefusalIsKept : Obligations.FirstRefusalIsKept :=
  fun _ _ r hstep => (RefusalKept.step hstep).record r

/-- Settles O14: only a TICK needs a premise, and only the TICK word on TIMER's port decodes to it. -/
theorem everyArrivalHasANextState : Obligations.EveryArrivalHasANextState := by
  intro s htick
  cases hin : s.inbox with
  | nil => exact ⟨_, step_of_idle hin⟩
  | cons a rest =>
    cases hdec : decode a.port a.word with
    | error r => exact ⟨_, step_of_refused hin hdec⟩
    | ok i =>
      rw [step_of_decode hin hdec]
      refine exec_hasNext i _ fun hi => ?_
      subst hi
      obtain ⟨-, hport, hword⟩ := encodeOfDecodeIsTheWord _ _ _ hdec
      exact htick a rest hin hport.symm (hword.symm.trans encode_tick)

end Sys2Proof
end

section
/-! SUPPORT. The events of a TICK while it shifts (70_reset_and_hazards.md R260, R261; log 23). -/

namespace Sys2Proof.Machine

variable {W CW ND NS NX NB : Nat}

/-- After its read a TICK only writes (40_refresh.md R103, R105, R106). -/
theorem read_not_mem_tickWrites (P : Sized.Params W CW ND NS NX NB) (i : Fin NS) (b : Byte) (p : PinId) (l : Bool) :
    .read p l ∉ tickWrites P i b := by
  have enable : .read p l ∉ enableSlot P i := by
    unfold enableSlot
    split <;> simp
  simp [tickWrites, digitsOff, shiftOut, shiftBit, clockPulse, enable]

theorem length_digitsOff (P : Sized.Params W CW ND NS NX NB) : (digitsOff P).length = ND := by
  rw [digitsOff, List.length_map, List.length_finRange]

/-- Eight data bits of three events, and the latch pulse of two (40_refresh.md R105). -/
theorem length_shiftOut (P : Sized.Params W CW ND NS NX NB) (b : Byte) : (shiftOut P b).length = 26 := rfl

/-- From the last OFF write to the end of the latch pulse, a TICK's writes are all the OFF writes and the first of the
shifting (40_refresh.md R103, R105). -/
theorem take_tickWrites_while_shifting (P : Sized.Params W CW ND NS NX NB) (i : Fin NS) (b : Byte) {m : Nat}
    (hm : m ≤ 26) : (tickWrites P i b).take (ND + m) = digitsOff P ++ (shiftOut P b).take m := by
  have off : ND + m = (digitsOff P).length + m := by rw [length_digitsOff]
  rw [tickWrites, off, List.take_length_add_append, List.take_append_of_le_length (hm.trans_eq (length_shiftOut P b).symm)]

/-- The OFF writes leave every digit-enable OFF, and no event of the shifting writes one (70_reset_and_hazards.md R261). -/
theorem pinLevel_digit_while_shifting {P : Sized.Params W CW ND NS NX NB} (hP : OutputPinsApart P) (es : List PinEvent)
    (b : Byte) (m : Nat) (j : Fin ND) :
    pinLevel P.pinDigit[j] (es ++ (digitsOff P ++ (shiftOut P b).take m)) = some (offLevel P) := by
  have shifting : ∀ l, .write P.pinDigit[j] l ∉ (shiftOut P b).take m := fun l h =>
    (write_mem_shiftOut (List.mem_of_mem_take h)).elim (hP.digit_ne_clk j) (hP.digit_ne_data j)
  rw [← List.append_assoc, pinLevel_append_of_no_write _ shifting, pinLevel_append]
  exact foldl_levelAfter_of_writes (.inl (write_mem_digitsOff.mpr ⟨⟨j, rfl⟩, rfl⟩))
    (fun _ h => (write_mem_digitsOff.mp h).2.symm)

end Sys2Proof.Machine
end

section
/-! PROOFS. The obligations of 70_reset_and_hazards.md. -/

namespace Sys2Proof

open Sys2Proof.Machine

/-- Settles O23: SHOW writes all positions in order, and the TICK finds the first b + 1 of them written. -/
theorem tickInsideShowSeesATornFrame : Obligations.TickInsideShowSeesATornFrame := by
  intro d0 d1 d2 d3 s b hi ht hg
  have pattern_eq : Vector.ofFn (showPattern d0 d1 d2 d3) = #v[d0, d1, d2, d3] := rfl
  obtain ⟨hidx, htrace⟩ :=
    writeDigits_drop_tick Config.board (showPattern d0 d1 d2 d3) (k := 0) (by omega) ht hg
  refine ⟨_, hostCommand_of_initialised _ _ hi, ?digits, hidx, ?trace⟩
  case digits =>
    rw [← pattern_eq, ← digitsWritten_finRange _ s.digit]
    exact (writeDigits_frame Config.board _ _ s).digit
  case trace =>
    refine htrace.trans ?_
    simp only [Nat.zero_le, true_and, Nat.zero_add, ← pattern_eq, Vector.getElem_ofFn]
    rfl

/-- Settles O35: the read comes first and is the only one; between the OFF writes and the end of the latch pulse only the
clock and data pins are written. -/
theorem digitsAreOffWhileShifting : Obligations.DigitsAreOffWhileShifting := by
  intro P s hdistinct
  have hP := outputPinsApart hdistinct
  refine ⟨_, tick_trace P s, rfl, fun e he l hread => ?_, fun n hlow hhigh j => ?_⟩
  · exact read_not_mem_tickWrites P _ _ _ l (hread ▸ he)
  · obtain ⟨m, rfl⟩ : ∃ m, n = 4 + m + 1 := ⟨n - 5, by omega⟩
    rw [List.take_succ_cons, take_tickWrites_while_shifting P _ _ (by omega), List.append_cons]
    exact pinLevel_digit_while_shifting hP _ _ m j

/-- Settles O9: the step's one arm for an empty inbox. -/
theorem idleBlockIsUnchanged : Obligations.IdleBlockIsUnchanged :=
  fun _ => step_of_idle

end Sys2Proof
end
